-- ==== Sys2Proof/Syntax.lean ====
section
/-!
DEFINITION. The command set as syntax (R89): one constructor of `Instr` per row of the opcode table, and the small
enumerations the commands and the status register are described with.
-/

namespace Sys2Proof

/-- The operand width W of a command (R6, R82): 2, 3 or 4 limbs. -/
inductive Width where
  | w128 | w192 | w256
deriving DecidableEq, Repr

/-- The six rounding modes, in the order of their codes 0..5 (R87). -/
inductive Rounding where
  | ne   -- ToNearestEven
  | na   -- ToNearestAway
  | tz   -- ToZero
  | az   -- AwayFromZero
  | tn   -- ToNegativeInfinity
  | tp   -- ToPositiveInfinity
deriving DecidableEq, Repr, Inhabited

/-- The tri-state truncation flag (R88): where the exact magnitude lies relative to the digits held. -/
inductive Trunc where
  | ex   -- exactly the digits held
  | hi   -- larger than the digits held
  | lo   -- smaller, by less than one unit of the last place
deriving DecidableEq, Repr

/-- The powers of ten MULP10 multiplies by (R83): 10^1, 10^2, 10^3, 10^4, 10^8, 10^19, 10^38. -/
inductive MulFactor where
  | k1 | k2 | k3 | k4 | k8 | k19 | k38
deriving DecidableEq, Repr

/-- The powers of ten DIVP10 divides by (R83): 10^1, 10^3, 10^4, 10^8, 10^19. -/
inductive DivFactor where
  | k1 | k3 | k4 | k8 | k19
deriving DecidableEq, Repr

/-- A command (R89). Every operand of a command is in registers, but for the three fields of REDUCE, which are kept as
the bits of the command word so that their illegal values (RM = 7, TIN = 0b11) can be written down and refused:
`rm` the RM field (R84), `sgn` the SGN bit, true for 1 (R85), `tin` the TIN field (R86). -/
inductive Instr where
  | add_128
  | add_192
  | add_256
  | sub_128
  | sub_192
  | sub_256
  | neg_128
  | neg_192
  | neg_256
  | mul_128
  | mul_192
  | mul_256
  | mul64_128
  | mul64_192
  | mul64_256
  | mulp10_128_1
  | mulp10_128_2
  | mulp10_128_3
  | mulp10_128_4
  | mulp10_128_8
  | mulp10_128_19
  | mulp10_128_38
  | mulp10_192_1
  | mulp10_192_2
  | mulp10_192_3
  | mulp10_192_4
  | mulp10_192_8
  | mulp10_192_19
  | mulp10_192_38
  | mulp10_256_1
  | mulp10_256_2
  | mulp10_256_3
  | mulp10_256_4
  | mulp10_256_8
  | mulp10_256_19
  | mulp10_256_38
  | div_128
  | div_192
  | div_256
  | divp10_128_1
  | divp10_128_3
  | divp10_128_4
  | divp10_128_8
  | divp10_128_19
  | divp10_192_1
  | divp10_192_3
  | divp10_192_4
  | divp10_192_8
  | divp10_192_19
  | divp10_256_1
  | divp10_256_3
  | divp10_256_4
  | divp10_256_8
  | divp10_256_19
  | lsh_128
  | lsh_192
  | lsh_256
  | rsh_128
  | rsh_192
  | rsh_256
  | lzc_128
  | lzc_192
  | lzc_256
  | log10_128
  | reduce_128 (rm : BitVec 3) (sgn : Bool) (tin : BitVec 2)
  | reduce_192 (rm : BitVec 3) (sgn : Bool) (tin : BitVec 2)
  | reduce_256 (rm : BitVec 3) (sgn : Bool) (tin : BitVec 2)
deriving DecidableEq, Repr

end Sys2Proof
end

