-- ==== Sys2Proof/WellFormed.lean ====
section
/-!
DEFINITION. Which terms of `Instr` are legal commands (R84, R86). Every other check of R95 (reserved bits, opcode,
width, factor list, unused fields) is met by construction: no term of `Instr` breaks it.
-/

namespace Sys2Proof

/-- RM = 7 is illegal (R84, R87). -/
def legalRm (rm : BitVec 3) : Bool := rm != 7#3

/-- TIN = 0b11 is illegal (R86, R88). -/
def legalTin (tin : BitVec 2) : Bool := tin != 3#2

/-- The instruction is a legal command of R89. -/
def Instr.wellFormed : Instr → Bool
  | .reduce_128 rm _ tin => legalRm rm && legalTin tin
  | .reduce_192 rm _ tin => legalRm rm && legalTin tin
  | .reduce_256 rm _ tin => legalRm rm && legalTin tin
  | .add_128 => true
  | .add_192 => true
  | .add_256 => true
  | .sub_128 => true
  | .sub_192 => true
  | .sub_256 => true
  | .neg_128 => true
  | .neg_192 => true
  | .neg_256 => true
  | .mul_128 => true
  | .mul_192 => true
  | .mul_256 => true
  | .mul64_128 => true
  | .mul64_192 => true
  | .mul64_256 => true
  | .mulp10_128_1 => true
  | .mulp10_128_2 => true
  | .mulp10_128_3 => true
  | .mulp10_128_4 => true
  | .mulp10_128_8 => true
  | .mulp10_128_19 => true
  | .mulp10_128_38 => true
  | .mulp10_192_1 => true
  | .mulp10_192_2 => true
  | .mulp10_192_3 => true
  | .mulp10_192_4 => true
  | .mulp10_192_8 => true
  | .mulp10_192_19 => true
  | .mulp10_192_38 => true
  | .mulp10_256_1 => true
  | .mulp10_256_2 => true
  | .mulp10_256_3 => true
  | .mulp10_256_4 => true
  | .mulp10_256_8 => true
  | .mulp10_256_19 => true
  | .mulp10_256_38 => true
  | .div_128 => true
  | .div_192 => true
  | .div_256 => true
  | .divp10_128_1 => true
  | .divp10_128_3 => true
  | .divp10_128_4 => true
  | .divp10_128_8 => true
  | .divp10_128_19 => true
  | .divp10_192_1 => true
  | .divp10_192_3 => true
  | .divp10_192_4 => true
  | .divp10_192_8 => true
  | .divp10_192_19 => true
  | .divp10_256_1 => true
  | .divp10_256_3 => true
  | .divp10_256_4 => true
  | .divp10_256_8 => true
  | .divp10_256_19 => true
  | .lsh_128 => true
  | .lsh_192 => true
  | .lsh_256 => true
  | .rsh_128 => true
  | .rsh_192 => true
  | .rsh_256 => true
  | .lzc_128 => true
  | .lzc_192 => true
  | .lzc_256 => true
  | .log10_128 => true

end Sys2Proof
end

