-- ==== Sys2Proof/Word.lean ====
section
/-!
DEFINITION. The word of the machine: a 64-bit limb or register (R6 "LIMB 64 bits", R22).
Numbers wider than one limb are mathematical integers (`Nat`, `Int`), as R8 has them.
-/

namespace Sys2Proof

/-- One 64-bit register, limb, bus word or command word (R6, R22, R63, R80). -/
abbrev Word := BitVec 64

end Sys2Proof
end

