-- ==== Sys2Proof/Decode.lean ====
section
/-!
DEFINITION. The command word (R80, R81), its decoder (R95), total on every 64-bit word and rejecting by name, and its
encoder (R97). There is one word per command, so a decoder never needs a length (R96).
-/

namespace Sys2Proof

/-! ## The codes of the fields -/

/-- The thirteen operations of R89. -/
inductive Op where
  | add | sub | neg | mul | mul64 | mulp10 | div | divp10 | lsh | rsh | lzc | log10 | reduce
deriving DecidableEq, Repr

/-- The opcode number of an operation (R89). -/
def Op.code : Op → BitVec 8
  | .add => 0x01#8
  | .sub => 0x02#8
  | .neg => 0x03#8
  | .mul => 0x10#8
  | .mul64 => 0x11#8
  | .mulp10 => 0x12#8
  | .div => 0x20#8
  | .divp10 => 0x21#8
  | .lsh => 0x30#8
  | .rsh => 0x31#8
  | .lzc => 0x38#8
  | .log10 => 0x39#8
  | .reduce => 0x40#8

/-- The operation an opcode number names; every number R89 does not list is illegal. -/
def Op.ofCode (c : BitVec 8) : Option Op :=
  match c.toNat with
  | 0x01 => some .add
  | 0x02 => some .sub
  | 0x03 => some .neg
  | 0x10 => some .mul
  | 0x11 => some .mul64
  | 0x12 => some .mulp10
  | 0x20 => some .div
  | 0x21 => some .divp10
  | 0x30 => some .lsh
  | 0x31 => some .rsh
  | 0x38 => some .lzc
  | 0x39 => some .log10
  | 0x40 => some .reduce
  | _ => none

/-- The W field of a width (R82). -/
def Width.code : Width → BitVec 2
  | .w128 => 0b01#2
  | .w192 => 0b10#2
  | .w256 => 0b11#2

/-- The width a W field names; 0b00 is reserved and illegal (R82, R92). -/
def Width.ofCode (c : BitVec 2) : Option Width :=
  match c.toNat with
  | 1 => some .w128
  | 2 => some .w192
  | 3 => some .w256
  | _ => none

/-- The exponent k of a MULP10 constant 10^k (R83). -/
def MulFactor.exponent : MulFactor → Nat
  | .k1 => 1 | .k2 => 2 | .k3 => 3 | .k4 => 4 | .k8 => 8 | .k19 => 19 | .k38 => 38

/-- The MULP10 constant a K field names; other values are illegal (R83, R93). -/
def MulFactor.ofCode (k : BitVec 6) : Option MulFactor :=
  match k.toNat with
  | 1 => some .k1
  | 2 => some .k2
  | 3 => some .k3
  | 4 => some .k4
  | 8 => some .k8
  | 19 => some .k19
  | 38 => some .k38
  | _ => none

/-- The exponent k of a DIVP10 divisor 10^k (R83). -/
def DivFactor.exponent : DivFactor → Nat
  | .k1 => 1 | .k3 => 3 | .k4 => 4 | .k8 => 8 | .k19 => 19

/-- The DIVP10 divisor a K field names; other values are illegal (R83, R93). -/
def DivFactor.ofCode (k : BitVec 6) : Option DivFactor :=
  match k.toNat with
  | 1 => some .k1
  | 3 => some .k3
  | 4 => some .k4
  | 8 => some .k8
  | 19 => some .k19
  | _ => none

/-! ## The families of commands by width and factor -/

/-- The ADD commands (R89). -/
def Instr.add : Width → Instr
  | .w128 => .add_128
  | .w192 => .add_192
  | .w256 => .add_256

/-- The SUB commands (R89). -/
def Instr.sub : Width → Instr
  | .w128 => .sub_128
  | .w192 => .sub_192
  | .w256 => .sub_256

/-- The NEG commands (R89). -/
def Instr.neg : Width → Instr
  | .w128 => .neg_128
  | .w192 => .neg_192
  | .w256 => .neg_256

/-- The MUL commands (R89). -/
def Instr.mul : Width → Instr
  | .w128 => .mul_128
  | .w192 => .mul_192
  | .w256 => .mul_256

/-- The MUL64 commands (R89). -/
def Instr.mul64 : Width → Instr
  | .w128 => .mul64_128
  | .w192 => .mul64_192
  | .w256 => .mul64_256

/-- The MULP10 commands (R89). -/
def Instr.mulp10 : Width → MulFactor → Instr
  | .w128, .k1 => .mulp10_128_1
  | .w128, .k2 => .mulp10_128_2
  | .w128, .k3 => .mulp10_128_3
  | .w128, .k4 => .mulp10_128_4
  | .w128, .k8 => .mulp10_128_8
  | .w128, .k19 => .mulp10_128_19
  | .w128, .k38 => .mulp10_128_38
  | .w192, .k1 => .mulp10_192_1
  | .w192, .k2 => .mulp10_192_2
  | .w192, .k3 => .mulp10_192_3
  | .w192, .k4 => .mulp10_192_4
  | .w192, .k8 => .mulp10_192_8
  | .w192, .k19 => .mulp10_192_19
  | .w192, .k38 => .mulp10_192_38
  | .w256, .k1 => .mulp10_256_1
  | .w256, .k2 => .mulp10_256_2
  | .w256, .k3 => .mulp10_256_3
  | .w256, .k4 => .mulp10_256_4
  | .w256, .k8 => .mulp10_256_8
  | .w256, .k19 => .mulp10_256_19
  | .w256, .k38 => .mulp10_256_38

/-- The DIV commands (R89). -/
def Instr.div : Width → Instr
  | .w128 => .div_128
  | .w192 => .div_192
  | .w256 => .div_256

/-- The DIVP10 commands (R89). -/
def Instr.divp10 : Width → DivFactor → Instr
  | .w128, .k1 => .divp10_128_1
  | .w128, .k3 => .divp10_128_3
  | .w128, .k4 => .divp10_128_4
  | .w128, .k8 => .divp10_128_8
  | .w128, .k19 => .divp10_128_19
  | .w192, .k1 => .divp10_192_1
  | .w192, .k3 => .divp10_192_3
  | .w192, .k4 => .divp10_192_4
  | .w192, .k8 => .divp10_192_8
  | .w192, .k19 => .divp10_192_19
  | .w256, .k1 => .divp10_256_1
  | .w256, .k3 => .divp10_256_3
  | .w256, .k4 => .divp10_256_4
  | .w256, .k8 => .divp10_256_8
  | .w256, .k19 => .divp10_256_19

/-- The LSH commands (R89). -/
def Instr.lsh : Width → Instr
  | .w128 => .lsh_128
  | .w192 => .lsh_192
  | .w256 => .lsh_256

/-- The RSH commands (R89). -/
def Instr.rsh : Width → Instr
  | .w128 => .rsh_128
  | .w192 => .rsh_192
  | .w256 => .rsh_256

/-- The LZC commands (R89). -/
def Instr.lzc : Width → Instr
  | .w128 => .lzc_128
  | .w192 => .lzc_192
  | .w256 => .lzc_256

/-- The REDUCE commands (R89). -/
def Instr.reduce (w : Width) (rm : BitVec 3) (sgn : Bool) (tin : BitVec 2) : Instr :=
  match w with
  | .w128 => .reduce_128 rm sgn tin
  | .w192 => .reduce_192 rm sgn tin
  | .w256 => .reduce_256 rm sgn tin

/-! ## The fields of the word -/

/-- OPC, bits [7:0] (R81). -/
def fieldOpc (v : Word) : BitVec 8 := v.extractLsb' 0 8

/-- W, bits [9:8] (R81). -/
def fieldW (v : Word) : BitVec 2 := v.extractLsb' 8 2

/-- K, bits [15:10] (R81). -/
def fieldK (v : Word) : BitVec 6 := v.extractLsb' 10 6

/-- RM, bits [18:16] (R81). -/
def fieldRm (v : Word) : BitVec 3 := v.extractLsb' 16 3

/-- SGN, bit [19] (R81). -/
def fieldSgn (v : Word) : Bool := v.getLsbD 19

/-- TIN, bits [21:20] (R81). -/
def fieldTin (v : Word) : BitVec 2 := v.extractLsb' 20 2

/-- The reserved bits [63:22] (R81, R90). -/
def fieldReserved (v : Word) : BitVec 42 := v.extractLsb' 22 42

/-- The fields of a legal command word (R81). -/
structure Fields where
  op  : Op
  w   : Width
  k   : BitVec 6 := 0#6
  rm  : BitVec 3 := 0#3
  sgn : Bool := false
  tin : BitVec 2 := 0#2
deriving DecidableEq, Repr

/-! ## Decode -/

/-- Why a word is illegal: the checks of R95, in its order. -/
inductive IllegalWord where
  /-- Bits [63:22] are not all zero (R90). -/
  | reservedBits
  /-- OPC is not in the table of R89. -/
  | opcode
  /-- W = 0b00 (R82, R92). -/
  | width
  /-- LOG10 with a width other than 128 (R92). -/
  | log10Width
  /-- A field the opcode does not use is not zero (R91). -/
  | unusedField
  /-- RM = 7 in REDUCE (R84). -/
  | rounding
  /-- TIN = 0b11 in REDUCE (R86). -/
  | truncation
  /-- K is not in the list of MULP10 or DIVP10 (R93). -/
  | factor
deriving DecidableEq, Repr

/-- R91: RM, SGN and TIN, which every opcode but REDUCE leaves zero. -/
def reduceFieldsZero (rm : BitVec 3) (sgn : Bool) (tin : BitVec 2) : Bool := rm == 0#3 && !sgn && tin == 0#2

/-- A command that uses no field but OPC and W: every other field must be zero (R91). -/
def plainCommand (k : BitVec 6) (rm : BitVec 3) (sgn : Bool) (tin : BitVec 2) (i : Instr) : Except IllegalWord Instr :=
  if reduceFieldsZero rm sgn tin && k == 0#6 then .ok i else .error .unusedField

/-- A command whose K field names a constant: K must be in its list (R93), the other fields zero (R91). -/
def factorCommand (rm : BitVec 3) (sgn : Bool) (tin : BitVec 2) (i : Option Instr) : Except IllegalWord Instr :=
  if reduceFieldsZero rm sgn tin then
    match i with
    | some i => .ok i
    | none => .error .factor
  else .error .unusedField

/-- REDUCE: K must be zero (R91), RM not 7 (R84), TIN not 0b11 (R86). -/
def reduceCommand (w : Width) (k : BitVec 6) (rm : BitVec 3) (sgn : Bool) (tin : BitVec 2) :
    Except IllegalWord Instr :=
  if k ≠ 0#6 then .error .unusedField
  else if rm = 7#3 then .error .rounding
  else if tin = 3#2 then .error .truncation
  else .ok (.reduce w rm sgn tin)

/-- The command of an operation and its fields (R95, once the operation and the width are known). -/
def checkFields (op : Op) (w : Width) (k : BitVec 6) (rm : BitVec 3) (sgn : Bool) (tin : BitVec 2) :
    Except IllegalWord Instr :=
  match op with
  | .add => plainCommand k rm sgn tin (.add w)
  | .sub => plainCommand k rm sgn tin (.sub w)
  | .neg => plainCommand k rm sgn tin (.neg w)
  | .mul => plainCommand k rm sgn tin (.mul w)
  | .mul64 => plainCommand k rm sgn tin (.mul64 w)
  | .mulp10 => factorCommand rm sgn tin ((MulFactor.ofCode k).map (.mulp10 w))
  | .div => plainCommand k rm sgn tin (.div w)
  | .divp10 => factorCommand rm sgn tin ((DivFactor.ofCode k).map (.divp10 w))
  | .lsh => plainCommand k rm sgn tin (.lsh w)
  | .rsh => plainCommand k rm sgn tin (.rsh w)
  | .lzc => plainCommand k rm sgn tin (.lzc w)
  | .log10 => if w = .w128 then plainCommand k rm sgn tin .log10_128 else .error .log10Width
  | .reduce => reduceCommand w k rm sgn tin

/-- R95: the decode function, total on every 64-bit word. -/
def decode (v : Word) : Except IllegalWord Instr :=
  if fieldReserved v ≠ 0#42 then .error .reservedBits
  else
    match Op.ofCode (fieldOpc v) with
    | none => .error .opcode
    | some op =>
      match Width.ofCode (fieldW v) with
      | none => .error .width
      | some w => checkFields op w (fieldK v) (fieldRm v) (fieldSgn v) (fieldTin v)

/-- The decoder on an instruction given as a number, its bits numbered as the opcode table numbers them. A command is one
64-bit word (R80), so the bits at and above `nbits` are 0. -/
def decodeTableWord (nbits w : Nat) : Option Instr :=
  match decode (BitVec.ofNat 64 (w % 2 ^ nbits)) with
  | .ok i => some i
  | .error _ => none

/-! ## Encode -/

/-- The fields of each command (R97). -/
def Instr.fields : Instr → Fields
  | .add_128 => ⟨.add, .w128, 0#6, 0#3, false, 0#2⟩
  | .add_192 => ⟨.add, .w192, 0#6, 0#3, false, 0#2⟩
  | .add_256 => ⟨.add, .w256, 0#6, 0#3, false, 0#2⟩
  | .sub_128 => ⟨.sub, .w128, 0#6, 0#3, false, 0#2⟩
  | .sub_192 => ⟨.sub, .w192, 0#6, 0#3, false, 0#2⟩
  | .sub_256 => ⟨.sub, .w256, 0#6, 0#3, false, 0#2⟩
  | .neg_128 => ⟨.neg, .w128, 0#6, 0#3, false, 0#2⟩
  | .neg_192 => ⟨.neg, .w192, 0#6, 0#3, false, 0#2⟩
  | .neg_256 => ⟨.neg, .w256, 0#6, 0#3, false, 0#2⟩
  | .mul_128 => ⟨.mul, .w128, 0#6, 0#3, false, 0#2⟩
  | .mul_192 => ⟨.mul, .w192, 0#6, 0#3, false, 0#2⟩
  | .mul_256 => ⟨.mul, .w256, 0#6, 0#3, false, 0#2⟩
  | .mul64_128 => ⟨.mul64, .w128, 0#6, 0#3, false, 0#2⟩
  | .mul64_192 => ⟨.mul64, .w192, 0#6, 0#3, false, 0#2⟩
  | .mul64_256 => ⟨.mul64, .w256, 0#6, 0#3, false, 0#2⟩
  | .mulp10_128_1 => ⟨.mulp10, .w128, 1#6, 0#3, false, 0#2⟩
  | .mulp10_128_2 => ⟨.mulp10, .w128, 2#6, 0#3, false, 0#2⟩
  | .mulp10_128_3 => ⟨.mulp10, .w128, 3#6, 0#3, false, 0#2⟩
  | .mulp10_128_4 => ⟨.mulp10, .w128, 4#6, 0#3, false, 0#2⟩
  | .mulp10_128_8 => ⟨.mulp10, .w128, 8#6, 0#3, false, 0#2⟩
  | .mulp10_128_19 => ⟨.mulp10, .w128, 19#6, 0#3, false, 0#2⟩
  | .mulp10_128_38 => ⟨.mulp10, .w128, 38#6, 0#3, false, 0#2⟩
  | .mulp10_192_1 => ⟨.mulp10, .w192, 1#6, 0#3, false, 0#2⟩
  | .mulp10_192_2 => ⟨.mulp10, .w192, 2#6, 0#3, false, 0#2⟩
  | .mulp10_192_3 => ⟨.mulp10, .w192, 3#6, 0#3, false, 0#2⟩
  | .mulp10_192_4 => ⟨.mulp10, .w192, 4#6, 0#3, false, 0#2⟩
  | .mulp10_192_8 => ⟨.mulp10, .w192, 8#6, 0#3, false, 0#2⟩
  | .mulp10_192_19 => ⟨.mulp10, .w192, 19#6, 0#3, false, 0#2⟩
  | .mulp10_192_38 => ⟨.mulp10, .w192, 38#6, 0#3, false, 0#2⟩
  | .mulp10_256_1 => ⟨.mulp10, .w256, 1#6, 0#3, false, 0#2⟩
  | .mulp10_256_2 => ⟨.mulp10, .w256, 2#6, 0#3, false, 0#2⟩
  | .mulp10_256_3 => ⟨.mulp10, .w256, 3#6, 0#3, false, 0#2⟩
  | .mulp10_256_4 => ⟨.mulp10, .w256, 4#6, 0#3, false, 0#2⟩
  | .mulp10_256_8 => ⟨.mulp10, .w256, 8#6, 0#3, false, 0#2⟩
  | .mulp10_256_19 => ⟨.mulp10, .w256, 19#6, 0#3, false, 0#2⟩
  | .mulp10_256_38 => ⟨.mulp10, .w256, 38#6, 0#3, false, 0#2⟩
  | .div_128 => ⟨.div, .w128, 0#6, 0#3, false, 0#2⟩
  | .div_192 => ⟨.div, .w192, 0#6, 0#3, false, 0#2⟩
  | .div_256 => ⟨.div, .w256, 0#6, 0#3, false, 0#2⟩
  | .divp10_128_1 => ⟨.divp10, .w128, 1#6, 0#3, false, 0#2⟩
  | .divp10_128_3 => ⟨.divp10, .w128, 3#6, 0#3, false, 0#2⟩
  | .divp10_128_4 => ⟨.divp10, .w128, 4#6, 0#3, false, 0#2⟩
  | .divp10_128_8 => ⟨.divp10, .w128, 8#6, 0#3, false, 0#2⟩
  | .divp10_128_19 => ⟨.divp10, .w128, 19#6, 0#3, false, 0#2⟩
  | .divp10_192_1 => ⟨.divp10, .w192, 1#6, 0#3, false, 0#2⟩
  | .divp10_192_3 => ⟨.divp10, .w192, 3#6, 0#3, false, 0#2⟩
  | .divp10_192_4 => ⟨.divp10, .w192, 4#6, 0#3, false, 0#2⟩
  | .divp10_192_8 => ⟨.divp10, .w192, 8#6, 0#3, false, 0#2⟩
  | .divp10_192_19 => ⟨.divp10, .w192, 19#6, 0#3, false, 0#2⟩
  | .divp10_256_1 => ⟨.divp10, .w256, 1#6, 0#3, false, 0#2⟩
  | .divp10_256_3 => ⟨.divp10, .w256, 3#6, 0#3, false, 0#2⟩
  | .divp10_256_4 => ⟨.divp10, .w256, 4#6, 0#3, false, 0#2⟩
  | .divp10_256_8 => ⟨.divp10, .w256, 8#6, 0#3, false, 0#2⟩
  | .divp10_256_19 => ⟨.divp10, .w256, 19#6, 0#3, false, 0#2⟩
  | .lsh_128 => ⟨.lsh, .w128, 0#6, 0#3, false, 0#2⟩
  | .lsh_192 => ⟨.lsh, .w192, 0#6, 0#3, false, 0#2⟩
  | .lsh_256 => ⟨.lsh, .w256, 0#6, 0#3, false, 0#2⟩
  | .rsh_128 => ⟨.rsh, .w128, 0#6, 0#3, false, 0#2⟩
  | .rsh_192 => ⟨.rsh, .w192, 0#6, 0#3, false, 0#2⟩
  | .rsh_256 => ⟨.rsh, .w256, 0#6, 0#3, false, 0#2⟩
  | .lzc_128 => ⟨.lzc, .w128, 0#6, 0#3, false, 0#2⟩
  | .lzc_192 => ⟨.lzc, .w192, 0#6, 0#3, false, 0#2⟩
  | .lzc_256 => ⟨.lzc, .w256, 0#6, 0#3, false, 0#2⟩
  | .log10_128 => ⟨.log10, .w128, 0#6, 0#3, false, 0#2⟩
  | .reduce_128 rm sgn tin => ⟨.reduce, .w128, 0#6, rm, sgn, tin⟩
  | .reduce_192 rm sgn tin => ⟨.reduce, .w192, 0#6, rm, sgn, tin⟩
  | .reduce_256 rm sgn tin => ⟨.reduce, .w256, 0#6, rm, sgn, tin⟩

/-- The word of the fields, most significant first, in the bit pattern of R81: 42 zeros, TIN, SGN, RM, K, W, OPC. -/
def Fields.word (f : Fields) : Word :=
  0#42 ++ f.tin ++ BitVec.ofBool f.sgn ++ f.rm ++ f.k ++ f.w.code ++ f.op.code

/-- R97: the word an instruction is written as. -/
def encode (i : Instr) : Word := i.fields.word

end Sys2Proof
end

