-- ==== Sys2Proof/Config.lean ====
section
/-!
DEFINITION. What one implementation or one platform fixes and the spec leaves open (the OPEN parameters of R6), and the
free values. None has a body that a proof could see: a statement holds whatever they are.
-/

namespace Sys2Proof

/-- DEFMODE (R6, R38, D14): the default rounding mode, fixed by the platform at build time. -/
opaque Config.defMode : Rounding

/-- BASE / 256 (R6, R60): the window's platform address is 256-byte aligned, so BASE is 256 times this number. -/
opaque Config.basePage : Nat

/-- LAT_MAX − 1 (R6, R263, I4): LAT_MAX is finite and at least 1. -/
opaque Config.latMaxLessOne : Nat

/-- FREE VALUE: the n-th draw of a command's latency, before it is brought into [1, LAT_MAX] (R31, R263, I4). -/
opaque Config.latencyDraw : Nat → Nat

/-- FREE VALUE: the n-th draw of what a result register shows while a command is busy (R40, R265, I3). -/
opaque Config.busyRead : Nat → Word

/-- LAT_MAX (R6): the most cycles a command is busy. -/
def Config.latMax : Nat := Config.latMaxLessOne + 1

/-- BASE (R6, R60): the platform address of the register window. -/
def Config.base : Nat := 256 * Config.basePage

end Sys2Proof
end

