-- ==== Sys2Proof/Machine/State.lean ====
section
/-!
DEFINITION. The state of the machine as plain data: the 21 registers of R22, the hidden state of R39, and the model's own
fields (the host's accesses, what they answered, the free draws, and the record R240 and R261 ask for).
-/

namespace Sys2Proof.Machine

/-! ## Registers -/

/-- A limb group of four 64-bit registers, `l0` least significant (R7, R22). -/
structure Limbs where
  l0 : Word
  l1 : Word
  l2 : Word
  l3 : Word
deriving DecidableEq, Repr

/-- The registers of the window (R22, R62). -/
inductive Reg where
  | a (i : Fin 4) | b (i : Fin 4) | r (i : Fin 4) | x (i : Fin 4)
  | expi | expo | cmd | stat | cfg
deriving DecidableEq, Repr

/-- The command errors (R232); success is the absence of one. -/
inductive CommandError where
  | illegal | divZero | domain
deriving DecidableEq, Repr

/-- STAT (R30): its fields by name. Its 64-bit word, in which every other bit is 0, is `Status.toWord`. -/
structure Status where
  busy  : Bool
  c     : Bool
  z     : Bool
  ovf   : Bool
  trunc : Trunc
  err   : Option CommandError
  rd    : BitVec 4
deriving DecidableEq, Repr

/-- CFG (R38): the default rounding mode, its one field. Its 64-bit word is `Cfg.toWord`. -/
structure Cfg where
  defMode : Rounding
deriving DecidableEq, Repr

/-! ## Which registers have been set (R261) -/

/-- One mark per limb of a group. -/
structure LimbFlags where
  f0 : Bool
  f1 : Bool
  f2 : Bool
  f3 : Bool
deriving DecidableEq, Repr

/-- The registers set since reset: A, B and EXPI by a host write, R and X by a successful command, EXPO by a successful
REDUCE (R261). Model's own. -/
structure Written where
  a       : LimbFlags
  b       : LimbFlags
  expi    : Bool
  results : Bool
  expo    : Bool
deriving DecidableEq, Repr

/-- The sticky record of what a host program must not do; nothing clears it. Model's own (R240, R261, I8). -/
structure Ghost where
  /-- A command completed with STAT.ERR ≠ 0 (R240). -/
  commandFailed : Bool
  /-- A register was read that nothing had set (R261). -/
  unsetRead : Bool
  /-- A host access was answered by a bus error (R236, I8). -/
  busError : Bool
deriving DecidableEq, Repr

/-! ## The command in flight -/

/-- The snapshot a command computes from (R39): A, B and EXPI[15:0] as they were at its CMD write; which of them had been
set (R261); and the cycles it is still busy (R31). -/
structure InFlight where
  a          : Limbs
  b          : Limbs
  expi       : BitVec 16
  written    : Written
  cyclesLeft : Nat
deriving DecidableEq, Repr

/-! ## The host's side -/

/-- One host access to the window (R61): an offset from BASE, which the 256-byte window makes 8 bits, and a size in
bytes. -/
inductive Access where
  | read (off : BitVec 8) (size : Nat)
  | write (off : BitVec 8) (size : Nat) (v : Word)
deriving DecidableEq, Repr

/-- What the outside does in one cycle: nothing, one access of the host (R67), or the platform's reset (R260). -/
inductive Input where
  | quiet
  | access (acc : Access)
  | reset
deriving DecidableEq, Repr

/-- What an access answers: the value read, an acknowledged write, or the error response of R64. -/
inductive Response where
  | data (v : Word)
  | done
  | busError
deriving DecidableEq, Repr

/-! ## The state -/

/-- The machine: R22's registers, R39's snapshot, and the model's own fields. -/
structure State where
  /-- A0..A3 (R23). -/
  a : Limbs
  /-- B0..B3 (R24). -/
  b : Limbs
  /-- R0..R3 (R25). -/
  r : Limbs
  /-- X0..X3 (R26). -/
  x : Limbs
  /-- EXPI (R27). -/
  expi : Word
  /-- EXPO (R28). -/
  expo : Word
  /-- CMD (R29). -/
  cmd : Word
  /-- STAT (R30). -/
  stat : Status
  /-- CFG (R38). -/
  cfg : Cfg
  /-- The command in flight, with its snapshot (R39); none when the unit is idle. -/
  inFlight : Option InFlight
  /-- Which registers have been set (R261). Model's own. -/
  written : Written
  /-- The sticky record (R240). Model's own. -/
  ghost : Ghost
  /-- How many free values have been drawn. Model's own; no statement rests on its value. -/
  draws : Nat
  /-- What the outside does in the coming cycles, first first (R67). Model's own. -/
  inbox : List Input
  /-- What the accesses answered, oldest first. Model's own. -/
  responses : List Response
deriving DecidableEq, Repr

/-- All four limbs zero. -/
def Limbs.zero : Limbs := ⟨0#64, 0#64, 0#64, 0#64⟩

/-- No limb set. -/
def LimbFlags.none : LimbFlags := ⟨false, false, false, false⟩

/-- Nothing set since reset (R261). -/
def Written.none : Written := ⟨LimbFlags.none, LimbFlags.none, false, false, false⟩

/-- Nothing recorded. -/
def Ghost.clear : Ghost := ⟨false, false, false⟩

/-- STAT = 0: idle, no error (R30, R260). -/
def Status.idle : Status := ⟨false, false, false, false, .ex, Option.none, 0#4⟩

/-- The machine right after reset (R260): CMD = 0, STAT = 0, CFG = DEFMODE, no command in flight. The spec gives A, B, R, X,
EXPI and EXPO no value: the model's is 0, DESIGN CHOICE, unsafe (log entry 1). -/
def State.reset : State where
  a := Limbs.zero
  b := Limbs.zero
  r := Limbs.zero
  x := Limbs.zero
  expi := 0#64
  expo := 0#64
  cmd := 0#64
  stat := Status.idle
  cfg := ⟨Config.defMode⟩
  inFlight := Option.none
  written := Written.none
  ghost := Ghost.clear
  draws := 0
  inbox := []
  responses := []

/-! ## How a step can stop -/

/-- The faults of the model. -/
inductive Fault where
  /-- A meaning was called in a state in which no command is in flight, so there is no snapshot to compute from (R39).
  Raised by `runCommand`; no step raises it. Safe: the hardware completes no command that has not started. -/
  | noCommandInFlight
deriving DecidableEq, Repr

/-- The refusals of the model. -/
inductive Refusal where
  /-- The instruction has no meaning in the model yet. No arm raises it. Safe. -/
  | notModelled (mnemonic : String)
deriving DecidableEq, Repr

/-- The outcome of a meaning or of a step. -/
abbrev Answer := Host.Outcome State Fault Refusal

end Sys2Proof.Machine
end

