-- ==== Sys2Proof/Machine/Operands.lean ====
section
/-!
DEFINITION. The operand forms (R82 to R88): limb groups as integers, the widths, the single limb B0, the exponent, the
rounding mode and the entering truncation state. Every integer operand is unsigned (R9, R82).
-/

namespace Sys2Proof.Machine

/-- The number of bits of a width: W = 64 * (W_field + 1) (R82). -/
def bits : Width → Nat
  | .w128 => 128
  | .w192 => 192
  | .w256 => 256

/-- The number of limbs of a width, W/64 (R6). -/
def limbCount (w : Width) : Nat := bits w / 64

/-- The value A3:A2:A1:A0 of a limb group (R7). -/
def Limbs.toNat (g : Limbs) : Nat :=
  g.l0.toNat + g.l1.toNat * 2 ^ 64 + g.l2.toNat * 2 ^ 128 + g.l3.toNat * 2 ^ 192

/-- The limb group holding the low 256 bits of a number: limb i is `limb(v, i)` (R8). -/
def Limbs.ofNat (v : Nat) : Limbs :=
  ⟨BitVec.ofNat 64 v, BitVec.ofNat 64 (v / 2 ^ 64), BitVec.ofNat 64 (v / 2 ^ 128), BitVec.ofNat 64 (v / 2 ^ 192)⟩

/-- `A_W`: the value of the lowest W/64 limbs; the limbs above are ignored (R7, R23). -/
def Limbs.low (w : Width) (g : Limbs) : Nat :=
  match w with
  | .w128 => g.l0.toNat + g.l1.toNat * 2 ^ 64
  | .w192 => g.l0.toNat + g.l1.toNat * 2 ^ 64 + g.l2.toNat * 2 ^ 128
  | .w256 => g.toNat

/-- `B0`: the one limb MUL64, LSH and RSH read (R24). -/
def Limbs.first (g : Limbs) : Nat := g.l0.toNat

/-- Limb i of a group (R22). -/
def Limbs.get (g : Limbs) (i : Fin 4) : Word :=
  match i with
  | 0 => g.l0
  | 1 => g.l1
  | 2 => g.l2
  | 3 => g.l3

/-- The group with limb i replaced. -/
def Limbs.set (g : Limbs) (i : Fin 4) (v : Word) : Limbs :=
  match i with
  | 0 => { g with l0 := v }
  | 1 => { g with l1 := v }
  | 2 => { g with l2 := v }
  | 3 => { g with l3 := v }

/-- `R0 = R1 = R2 = R3 = 0` (R33). -/
def Limbs.isZero (g : Limbs) : Bool := g.l0 == 0#64 && g.l1 == 0#64 && g.l2 == 0#64 && g.l3 == 0#64

/-- The mark of limb i. -/
def LimbFlags.get (g : LimbFlags) (i : Fin 4) : Bool :=
  match i with
  | 0 => g.f0
  | 1 => g.f1
  | 2 => g.f2
  | 3 => g.f3

/-- Limb i marked as set. -/
def LimbFlags.mark (g : LimbFlags) (i : Fin 4) : LimbFlags :=
  match i with
  | 0 => { g with f0 := true }
  | 1 => { g with f1 := true }
  | 2 => { g with f2 := true }
  | 3 => { g with f3 := true }

/-- The lowest n limbs are all marked. -/
def LimbFlags.lowest (n : Nat) (g : LimbFlags) : Bool :=
  (n == 0 || g.f0) && (n ≤ 1 || g.f1) && (n ≤ 2 || g.f2) && (n ≤ 3 || g.f3)

/-- `E = sext_16(EXPI[15:0])`, a number in [−32768, 32767] (R27). -/
def exponentIn (e : BitVec 16) : Int := e.toInt

/-- The code of a rounding mode (R87). -/
def roundingCode : Rounding → BitVec 3
  | .ne => 0#3
  | .na => 1#3
  | .tz => 2#3
  | .az => 3#3
  | .tn => 4#3
  | .tp => 5#3

/-- The mode an RM field selects: 0..5 the six modes, 6 DEFMODE, 7 none (R84, R87, R210). -/
def roundingOf (rm : BitVec 3) (defMode : Rounding) : Option Rounding :=
  match rm.toNat with
  | 0 => some .ne
  | 1 => some .na
  | 2 => some .tz
  | 3 => some .az
  | 4 => some .tn
  | 5 => some .tp
  | 6 => some defMode
  | _ => none

/-- The code of a truncation state (R88). -/
def truncCode : Trunc → BitVec 2
  | .ex => 0b00#2
  | .hi => 0b01#2
  | .lo => 0b10#2

/-- The truncation state a TIN field names; 0b11 is illegal (R86, R88). -/
def truncOf (t : BitVec 2) : Option Trunc :=
  match t.toNat with
  | 0 => some .ex
  | 1 => some .hi
  | 2 => some .lo
  | _ => none

/-- Which operand registers a command reads (R24, R263). -/
structure Reads where
  /-- the lowest limbs of A, how many -/
  aLimbs : Nat := 0
  /-- the lowest limbs of B, how many -/
  bLimbs : Nat := 0
  /-- EXPI -/
  expi : Bool := false
deriving DecidableEq, Repr

/-- A_W only: NEG, MULP10, DIVP10, LZC, LOG10 (R24). -/
def readsA (w : Width) : Reads := { aLimbs := limbCount w }

/-- A_W and B_W: ADD, SUB, MUL, DIV (R24). -/
def readsAB (w : Width) : Reads := { aLimbs := limbCount w, bLimbs := limbCount w }

/-- A_W and B0: MUL64, LSH, RSH (R24). -/
def readsAB0 (w : Width) : Reads := { aLimbs := limbCount w, bLimbs := 1 }

/-- A_W and EXPI: REDUCE (R190). -/
def readsAExpi (w : Width) : Reads := { aLimbs := limbCount w, expi := true }

/-- The operand registers a command reads (R24, R263), by its operation and width. -/
def readsOf (i : Instr) : Reads :=
  match i.fields.op with
  | .add => readsAB i.fields.w
  | .sub => readsAB i.fields.w
  | .mul => readsAB i.fields.w
  | .div => readsAB i.fields.w
  | .mul64 => readsAB0 i.fields.w
  | .lsh => readsAB0 i.fields.w
  | .rsh => readsAB0 i.fields.w
  | .neg => readsA i.fields.w
  | .mulp10 => readsA i.fields.w
  | .divp10 => readsA i.fields.w
  | .lzc => readsA i.fields.w
  | .log10 => readsA i.fields.w
  | .reduce => readsAExpi i.fields.w

/-- The operand registers the command of a word reads: none for an illegal word, which decode catches before any operand is
read (R110, R237). -/
def wordReads (v : Word) : Reads :=
  match decode v with
  | .ok i => readsOf i
  | .error _ => {}

/-- Every register the command reads had been set when it started (R261, R263). -/
def Reads.allSet (d : Reads) (m : Written) : Bool :=
  m.a.lowest d.aLimbs && m.b.lowest d.bLimbs && (!d.expi || m.expi)

end Sys2Proof.Machine
end

