-- ==== Sys2Proof/Machine/Flags.lean ====
section
/-!
DEFINITION. What a command produces, and the flags of STAT computed from it (R30 to R37), with the words STAT and CFG read
as.
-/

namespace Sys2Proof.Machine

/-- What a successful command produces (R25, R26, R30). A field a command gives no value is 0 (R110). -/
structure Result where
  /-- the number whose limbs 0..3 go to R0..R3 -/
  r : Nat
  /-- the number whose limbs 0..3 go to X0..X3 -/
  x : Nat := 0
  /-- STAT.C -/
  c : Bool := false
  /-- STAT.OVF -/
  ovf : Bool := false
  /-- STAT.TRUNC -/
  trunc : Trunc := .ex
  /-- STAT.RD -/
  rd : Nat := 0
  /-- the exponent written to EXPO; REDUCE only (R28) -/
  expo : Option Int := none
deriving DecidableEq, Repr

/-- STAT.C of ADD: the carry out of bit W − 1, `(s div 2^W) mod 2` (R32, R111). -/
def carryOut (w : Width) (s : Nat) : Bool := s / 2 ^ bits w % 2 == 1

/-- STAT.C of SUB: the borrow `a < b` (R32, R112). -/
def borrow (a b : Nat) : Bool := decide (a < b)

/-- STAT.C of NEG: `a ≠ 0` (R32, R113). -/
def nonZero (a : Nat) : Bool := a != 0

/-- STAT after a command that succeeded: BUSY = 0, ERR = 0, Z from the written R limbs only (R30, R33). -/
def Status.succeeded (res : Result) : Status where
  busy := false
  c := res.c
  z := (Limbs.ofNat res.r).isZero
  ovf := res.ovf
  trunc := res.trunc
  err := none
  rd := BitVec.ofNat 4 res.rd

/-- STAT after `fail(code)`: BUSY = 0, ERR = code, every other field 0 (R231). -/
def Status.failed (e : CommandError) : Status := { Status.idle with err := some e }

/-- The code of STAT.ERR (R232). -/
def errCode : Option CommandError → BitVec 4
  | none => 0#4
  | some .illegal => 1#4
  | some .divZero => 2#4
  | some .domain => 3#4

/-- The 64-bit word of STAT, most significant field first; bits [63:16] and [7:6] read 0 (R30). -/
def Status.toWord (t : Status) : Word :=
  0#48 ++ t.rd ++ errCode t.err ++ 0#2 ++ truncCode t.trunc ++ BitVec.ofBool t.ovf ++ BitVec.ofBool t.z ++
    BitVec.ofBool t.c ++ BitVec.ofBool t.busy

/-- The 64-bit word of CFG: DEFMODE in [2:0], 0 above (R38). -/
def Cfg.toWord (g : Cfg) : Word := 0#61 ++ roundingCode g.defMode

/-- A read of STAT while busy: BUSY = 1, the reserved bits 0, every other field as the free value `v` has it (R30, R265). -/
def busyStatus (v : Word) : Word := (v &&& 0xFF3E#64) ||| 1#64

end Sys2Proof.Machine
end

