-- ==== Sys2Proof/Machine/Ops.lean ====
section
/-!
DEFINITION. The named operations over the registers: how a command starts, completes or fails (R29, R31, R40, R231), how the
window is read and written (R61 to R68), reset (R260), and what the unit does in one cycle (R31, R67). The unit takes no
trap and returns from none (R230, R239): `State.fail` is the one operation every command error goes through.
-/

namespace Sys2Proof.Machine

/-! ## Starting a command -/

/-- The latency of the n-th draw, in [1, LAT_MAX] (R31, R263). -/
def latency (n : Nat) : Nat := Config.latencyDraw n % Config.latMax + 1

/-- The snapshot taken at a CMD write (R39), for a command that will be busy for `cycles` cycles. -/
def State.snapshot (s : State) (cycles : Nat) : InFlight where
  a := s.a
  b := s.b
  expi := s.expi.extractLsb' 0 16
  written := s.written
  cyclesLeft := cycles

/-- The record of R261: the command with the snapshot `f` reads a register nothing had set. -/
def State.noteReads (d : Reads) (f : InFlight) (s : State) : State :=
  { s with ghost := { s.ghost with unsetRead := s.ghost.unsetRead || !d.allSet f.written } }

/-- A command starts: CMD holds the word, BUSY is 1, the operands are snapshotted (R29, R31, R39). The snapshot is where the
command reads its operands (R39, R67), so the record of R261 is made here, whatever becomes of the command (log entry 12). -/
def State.begin (v : Word) (cycles : Nat) (s : State) : State :=
  State.noteReads (wordReads v) (s.snapshot cycles)
    { s with cmd := v, stat := { s.stat with busy := true }, inFlight := some (s.snapshot cycles) }

/-- A CMD write while idle: the command starts, its latency drawn (R29, R31). -/
def State.start (v : Word) (s : State) : State :=
  { s.begin v (latency s.draws) with draws := s.draws + 1 }

/-! ## Completing a command -/

/-- A command succeeds: R, X, STAT and, for REDUCE, EXPO are written together, all limbs of R and X (R25, R26, R31, R40). -/
def State.succeed (res : Result) (s : State) : State :=
  { s with
    r := Limbs.ofNat res.r
    x := Limbs.ofNat res.x
    expo := match res.expo with
      | some e => BitVec.ofInt 64 e
      | none => s.expo
    stat := Status.succeeded res
    inFlight := none
    written := { s.written with results := true, expo := s.written.expo || res.expo.isSome } }

/-- `fail(code)`: only STAT is written (R231, R238). The failure goes into the sticky record (R240). -/
def State.fail (e : CommandError) (s : State) : State :=
  { s with stat := Status.failed e, inFlight := none, ghost := { s.ghost with commandFailed := true } }

/-- The end of a command: its result or its error (R40, R231). -/
def State.finish (out : Except CommandError Result) (s : State) : State :=
  match out with
  | .ok res => s.succeed res
  | .error e => s.fail e

/-- The common frame of every command (R110): it computes from the snapshot of the command in flight and completes. -/
def runCommand (body : InFlight → Except CommandError Result) (s : State) : Answer :=
  match s.inFlight with
  | none => .fault .noCommandInFlight
  | some f => .next (s.finish (body f))

/-- An illegal command: it fails with ILLEGAL (R110, R233, R237). -/
def runIllegal (s : State) : Answer := runCommand (fun _ => .error .illegal) s

/-! ## The register window -/

/-- The register at an offset of the window (R62); the reserved and the misaligned offsets have none. -/
def regAt (off : BitVec 8) : Option Reg :=
  match off.toNat with
  | 0x00 => some (.a 0)
  | 0x08 => some (.a 1)
  | 0x10 => some (.a 2)
  | 0x18 => some (.a 3)
  | 0x20 => some (.b 0)
  | 0x28 => some (.b 1)
  | 0x30 => some (.b 2)
  | 0x38 => some (.b 3)
  | 0x40 => some (.r 0)
  | 0x48 => some (.r 1)
  | 0x50 => some (.r 2)
  | 0x58 => some (.r 3)
  | 0x60 => some (.x 0)
  | 0x68 => some (.x 1)
  | 0x70 => some (.x 2)
  | 0x78 => some (.x 3)
  | 0x80 => some .expi
  | 0x88 => some .expo
  | 0x90 => some .cmd
  | 0x98 => some .stat
  | 0xA0 => some .cfg
  | _ => none

/-- The offset of a register (R62). -/
def offsetOf : Reg → BitVec 8
  | .a i => BitVec.ofNat 8 (0x00 + 8 * i.val)
  | .b i => BitVec.ofNat 8 (0x20 + 8 * i.val)
  | .r i => BitVec.ofNat 8 (0x40 + 8 * i.val)
  | .x i => BitVec.ofNat 8 (0x60 + 8 * i.val)
  | .expi => 0x80#8
  | .expo => 0x88#8
  | .cmd => 0x90#8
  | .stat => 0x98#8
  | .cfg => 0xA0#8

/-- The register an access of `size` bytes reaches: only whole aligned 8-byte accesses are defined (R61, R64). -/
def target (off : BitVec 8) (size : Nat) : Option Reg := if size = 8 then regAt off else none

/-- The offset of a platform address in the window at BASE; what lies outside is the platform's (R60, R62). -/
def windowOffset (addr : Nat) : Option (BitVec 8) :=
  if addr / 256 = Config.basePage then some (BitVec.ofNat 8 addr) else none

/-- The value a register holds, as its 64-bit bus word (R63, R65). -/
def State.readReg (s : State) : Reg → Word
  | .a i => s.a.get i
  | .b i => s.b.get i
  | .r i => s.r.get i
  | .x i => s.x.get i
  | .expi => s.expi
  | .expo => s.expo
  | .cmd => s.cmd
  | .stat => s.stat.toWord
  | .cfg => s.cfg.toWord

/-- The register has a value: it is one that reset sets, or something set it since (R260, R261). -/
def State.isSet (s : State) : Reg → Bool
  | .a i => s.written.a.get i
  | .b i => s.written.b.get i
  | .r _ => s.written.results
  | .x _ => s.written.results
  | .expi => s.written.expi
  | .expo => s.written.expo
  | .cmd => true
  | .stat => true
  | .cfg => true

/-- What a read of a register shows while a command is busy, where that is a free value `v` (R40, R265). -/
def busyView (v : Word) : Reg → Option Word
  | .r _ => some v
  | .x _ => some v
  | .expo => some v
  | .stat => some (busyStatus v)
  | .a _ => none
  | .b _ => none
  | .expi => none
  | .cmd => none
  | .cfg => none

/-- An access is answered. -/
def State.respond (a : Response) (s : State) : State := { s with responses := s.responses ++ [a] }

/-- A bus error: an error response, no register changed, no command started (R64, R236); recorded (I8). -/
def State.busError (s : State) : State :=
  { s with responses := s.responses ++ [.busError], ghost := { s.ghost with busError := true } }

/-- A host read of a register (R65). While busy, a result register shows a free value (R265). -/
def State.hostRead (g : Reg) (s : State) : State :=
  let noted := { s with ghost := { s.ghost with unsetRead := s.ghost.unsetRead || !s.isSet g } }
  match (if s.stat.busy then busyView (Config.busyRead s.draws) g else none) with
  | some v => { noted with draws := s.draws + 1, responses := s.responses ++ [.data v] }
  | none => { noted with responses := s.responses ++ [.data (s.readReg g)] }

/-- The state a host write of a register leaves; none where the register is read-only, or CMD while busy (R62, R64). -/
def State.writeReg (g : Reg) (v : Word) (s : State) : Option State :=
  match g with
  | .a i => some { s with a := s.a.set i v, written := { s.written with a := s.written.a.mark i } }
  | .b i => some { s with b := s.b.set i v, written := { s.written with b := s.written.b.mark i } }
  | .expi => some { s with expi := v, written := { s.written with expi := true } }
  | .cmd => if s.stat.busy then none else some (s.start v)
  | .r _ => none
  | .x _ => none
  | .expo => none
  | .stat => none
  | .cfg => none

/-- One host access, whole (R61, R64, R66). -/
def State.perform (acc : Access) (s : State) : State :=
  match acc with
  | .read off size =>
    match target off size with
    | some g => s.hostRead g
    | none => s.busError
  | .write off size v =>
    match (target off size).bind (fun g => s.writeReg g v) with
    | some t => t.respond .done
    | none => s.busError

/-! ## Reset -/

/-- The platform's reset (R260): every register takes its reset value, a command in flight is abandoned (I15). What lies
outside the unit (the inputs still to come, the answers given), the sticky record, the count of draws and DEFMODE stay. -/
def State.applyReset (s : State) : State :=
  { State.reset with
    cfg := s.cfg, ghost := s.ghost, draws := s.draws, inbox := s.inbox, responses := s.responses }

/-! ## One cycle -/

/-- One cycle of a busy command passes (R31). -/
def State.tick (s : State) : State :=
  { s with inFlight := s.inFlight.map (fun f => { f with cyclesLeft := f.cyclesLeft - 1 }) }

/-- The unit receives what the outside does in this cycle (R67). -/
def State.receive (s : State) : State :=
  match s.inbox with
  | [] => s
  | .quiet :: rest => { s with inbox := rest }
  | .access acc :: rest => State.perform acc { s with inbox := rest }
  | .reset :: rest => State.applyReset { s with inbox := rest }

/-- The platform resets the unit in this cycle. -/
def State.resetNow (s : State) : Bool :=
  match s.inbox with
  | .reset :: _ => true
  | .quiet :: _ => false
  | .access _ :: _ => false
  | [] => false

/-- The command in flight completes in this cycle. -/
def State.due (s : State) : Bool :=
  match s.inFlight with
  | some f => decide (f.cyclesLeft ≤ 1)
  | none => false

/-- What a cycle is: the unit's state moves on, or the command in flight completes. -/
inductive Cycle where
  | advance (t : State)
  | complete (i : Instr)
deriving DecidableEq, Repr

/-- The coming cycle. A reset is taken at once (R260); else a command that is due completes, an illegal one with ILLEGAL
(R31, R233); else a cycle of the latency passes and the unit receives what the outside does (R67). -/
def State.cycle (s : State) : Cycle :=
  if s.resetNow then .advance s.receive
  else if s.due then
    match decode s.cmd with
    | .ok i => .complete i
    | .error _ => .advance (s.fail .illegal)
  else .advance s.tick.receive

/-- The state in which the coming cycle completes the command word `v`, started with the registers as they are: CMD, BUSY,
the snapshot and its last cycle; a reset that stands first in the inbox is withdrawn. -/
def State.placeCommand (v : Word) (s : State) : State :=
  { s.begin v 1 with inbox := s.inbox.dropWhile (fun e => e == .reset) }

end Sys2Proof.Machine
end

