-- ==== Sys2Proof/Machine/AddSub.lean ====
section
/-!
DEFINITION. ADD, SUB and NEG (40_addsub.md).
-/

namespace Sys2Proof.Machine

/-- R111: the widening sum; its low 256 bits in R, the carry beyond in X0. -/
def addResult (w : Width) (a b : Nat) : Result :=
  { r := a + b, x := (a + b) / 2 ^ 256, c := carryOut w (a + b) }

/-- R112: the difference modulo 2^W and the borrow. -/
def subResult (w : Width) (a b : Nat) : Result :=
  { r := (a + 2 ^ bits w - b) % 2 ^ bits w, c := borrow a b }

/-- R113: the two's complement in W bits. -/
def negResult (w : Width) (a : Nat) : Result :=
  { r := (2 ^ bits w - a) % 2 ^ bits w, c := nonZero a }

/-- R111: ADD.W reads A_W and B_W. -/
def runAdd (w : Width) (s : State) : Answer :=
  runCommand (fun f => .ok (addResult w (f.a.low w) (f.b.low w))) s

/-- R112: SUB.W reads A_W and B_W. -/
def runSub (w : Width) (s : State) : Answer :=
  runCommand (fun f => .ok (subResult w (f.a.low w) (f.b.low w))) s

/-- R113: NEG.W reads A_W. -/
def runNeg (w : Width) (s : State) : Answer :=
  runCommand (fun f => .ok (negResult w (f.a.low w))) s

/-- ADD.128 (R111). -/
def execAdd_128 (s : State) : Answer := runAdd .w128 s

/-- ADD.192 (R111). -/
def execAdd_192 (s : State) : Answer := runAdd .w192 s

/-- ADD.256 (R111). -/
def execAdd_256 (s : State) : Answer := runAdd .w256 s

/-- SUB.128 (R112). -/
def execSub_128 (s : State) : Answer := runSub .w128 s

/-- SUB.192 (R112). -/
def execSub_192 (s : State) : Answer := runSub .w192 s

/-- SUB.256 (R112). -/
def execSub_256 (s : State) : Answer := runSub .w256 s

/-- NEG.128 (R113). -/
def execNeg_128 (s : State) : Answer := runNeg .w128 s

/-- NEG.192 (R113). -/
def execNeg_192 (s : State) : Answer := runNeg .w192 s

/-- NEG.256 (R113). -/
def execNeg_256 (s : State) : Answer := runNeg .w256 s

end Sys2Proof.Machine
end

