-- ==== Sys2Proof/Machine/Divide.lean ====
section
/-!
DEFINITION. DIV and DIVP10 (42_divide.md). Only unsigned floor division exists (R152).
-/

namespace Sys2Proof.Machine

/-- R150, R151: the quotient in R, the remainder in X. -/
def quotientResult (a d : Nat) : Result := { r := a / d, x := a % d }

/-- R150, R234: DIV.W fails with DIVZERO when B_W = 0. -/
def divOutcome (a b : Nat) : Except CommandError Result :=
  if b = 0 then .error .divZero else .ok (quotientResult a b)

/-- R150: DIV.W reads A_W and B_W. -/
def runDiv (w : Width) (s : State) : Answer :=
  runCommand (fun f => divOutcome (f.a.low w) (f.b.low w)) s

/-- R151: DIVP10.W k reads A_W; the divisor is 10^k. -/
def runDivP10 (w : Width) (k : DivFactor) (s : State) : Answer :=
  runCommand (fun f => .ok (quotientResult (f.a.low w) (10 ^ k.exponent))) s

/-- DIV.128 (R150). -/
def execDiv_128 (s : State) : Answer := runDiv .w128 s

/-- DIV.192 (R150). -/
def execDiv_192 (s : State) : Answer := runDiv .w192 s

/-- DIV.256 (R150). -/
def execDiv_256 (s : State) : Answer := runDiv .w256 s

/-- DIVP10.128 1 (R151). -/
def execDivP10_128_1 (s : State) : Answer := runDivP10 .w128 .k1 s

/-- DIVP10.128 3 (R151). -/
def execDivP10_128_3 (s : State) : Answer := runDivP10 .w128 .k3 s

/-- DIVP10.128 4 (R151). -/
def execDivP10_128_4 (s : State) : Answer := runDivP10 .w128 .k4 s

/-- DIVP10.128 8 (R151). -/
def execDivP10_128_8 (s : State) : Answer := runDivP10 .w128 .k8 s

/-- DIVP10.128 19 (R151). -/
def execDivP10_128_19 (s : State) : Answer := runDivP10 .w128 .k19 s

/-- DIVP10.192 1 (R151). -/
def execDivP10_192_1 (s : State) : Answer := runDivP10 .w192 .k1 s

/-- DIVP10.192 3 (R151). -/
def execDivP10_192_3 (s : State) : Answer := runDivP10 .w192 .k3 s

/-- DIVP10.192 4 (R151). -/
def execDivP10_192_4 (s : State) : Answer := runDivP10 .w192 .k4 s

/-- DIVP10.192 8 (R151). -/
def execDivP10_192_8 (s : State) : Answer := runDivP10 .w192 .k8 s

/-- DIVP10.192 19 (R151). -/
def execDivP10_192_19 (s : State) : Answer := runDivP10 .w192 .k19 s

/-- DIVP10.256 1 (R151). -/
def execDivP10_256_1 (s : State) : Answer := runDivP10 .w256 .k1 s

/-- DIVP10.256 3 (R151). -/
def execDivP10_256_3 (s : State) : Answer := runDivP10 .w256 .k3 s

/-- DIVP10.256 4 (R151). -/
def execDivP10_256_4 (s : State) : Answer := runDivP10 .w256 .k4 s

/-- DIVP10.256 8 (R151). -/
def execDivP10_256_8 (s : State) : Answer := runDivP10 .w256 .k8 s

/-- DIVP10.256 19 (R151). -/
def execDivP10_256_19 (s : State) : Answer := runDivP10 .w256 .k19 s

end Sys2Proof.Machine
end

