-- ==== Sys2Proof/Machine/Multiply.lean ====
section
/-!
DEFINITION. MUL, MUL64 and MULP10 (41_multiply.md). Every product is exact, in X:R (R133).
-/

namespace Sys2Proof.Machine

/-- R130 to R132: the whole product, its low 256 bits in R and the rest in X. -/
def productResult (a m : Nat) : Result := { r := a * m, x := a * m / 2 ^ 256 }

/-- R130: MUL.W reads A_W and B_W. -/
def runMul (w : Width) (s : State) : Answer :=
  runCommand (fun f => .ok (productResult (f.a.low w) (f.b.low w))) s

/-- R131: MUL64.W reads A_W and the one limb B0. -/
def runMul64 (w : Width) (s : State) : Answer :=
  runCommand (fun f => .ok (productResult (f.a.low w) f.b.first)) s

/-- R132: MULP10.W k reads A_W; the constant is 10^k. -/
def runMulP10 (w : Width) (k : MulFactor) (s : State) : Answer :=
  runCommand (fun f => .ok (productResult (f.a.low w) (10 ^ k.exponent))) s

/-- MUL.128 (R130). -/
def execMul_128 (s : State) : Answer := runMul .w128 s

/-- MUL.192 (R130). -/
def execMul_192 (s : State) : Answer := runMul .w192 s

/-- MUL.256 (R130). -/
def execMul_256 (s : State) : Answer := runMul .w256 s

/-- MUL64.128 (R131). -/
def execMul64_128 (s : State) : Answer := runMul64 .w128 s

/-- MUL64.192 (R131). -/
def execMul64_192 (s : State) : Answer := runMul64 .w192 s

/-- MUL64.256 (R131). -/
def execMul64_256 (s : State) : Answer := runMul64 .w256 s

/-- MULP10.128 1 (R132). -/
def execMulP10_128_1 (s : State) : Answer := runMulP10 .w128 .k1 s

/-- MULP10.128 2 (R132). -/
def execMulP10_128_2 (s : State) : Answer := runMulP10 .w128 .k2 s

/-- MULP10.128 3 (R132). -/
def execMulP10_128_3 (s : State) : Answer := runMulP10 .w128 .k3 s

/-- MULP10.128 4 (R132). -/
def execMulP10_128_4 (s : State) : Answer := runMulP10 .w128 .k4 s

/-- MULP10.128 8 (R132). -/
def execMulP10_128_8 (s : State) : Answer := runMulP10 .w128 .k8 s

/-- MULP10.128 19 (R132). -/
def execMulP10_128_19 (s : State) : Answer := runMulP10 .w128 .k19 s

/-- MULP10.128 38 (R132). -/
def execMulP10_128_38 (s : State) : Answer := runMulP10 .w128 .k38 s

/-- MULP10.192 1 (R132). -/
def execMulP10_192_1 (s : State) : Answer := runMulP10 .w192 .k1 s

/-- MULP10.192 2 (R132). -/
def execMulP10_192_2 (s : State) : Answer := runMulP10 .w192 .k2 s

/-- MULP10.192 3 (R132). -/
def execMulP10_192_3 (s : State) : Answer := runMulP10 .w192 .k3 s

/-- MULP10.192 4 (R132). -/
def execMulP10_192_4 (s : State) : Answer := runMulP10 .w192 .k4 s

/-- MULP10.192 8 (R132). -/
def execMulP10_192_8 (s : State) : Answer := runMulP10 .w192 .k8 s

/-- MULP10.192 19 (R132). -/
def execMulP10_192_19 (s : State) : Answer := runMulP10 .w192 .k19 s

/-- MULP10.192 38 (R132). -/
def execMulP10_192_38 (s : State) : Answer := runMulP10 .w192 .k38 s

/-- MULP10.256 1 (R132). -/
def execMulP10_256_1 (s : State) : Answer := runMulP10 .w256 .k1 s

/-- MULP10.256 2 (R132). -/
def execMulP10_256_2 (s : State) : Answer := runMulP10 .w256 .k2 s

/-- MULP10.256 3 (R132). -/
def execMulP10_256_3 (s : State) : Answer := runMulP10 .w256 .k3 s

/-- MULP10.256 4 (R132). -/
def execMulP10_256_4 (s : State) : Answer := runMulP10 .w256 .k4 s

/-- MULP10.256 8 (R132). -/
def execMulP10_256_8 (s : State) : Answer := runMulP10 .w256 .k8 s

/-- MULP10.256 19 (R132). -/
def execMulP10_256_19 (s : State) : Answer := runMulP10 .w256 .k19 s

/-- MULP10.256 38 (R132). -/
def execMulP10_256_38 (s : State) : Answer := runMulP10 .w256 .k38 s

end Sys2Proof.Machine
end

