-- ==== Sys2Proof/Machine/CountShift.lean ====
section
/-!
DEFINITION. LSH, RSH, LZC and LOG10 (43_count_shift.md).
-/

namespace Sys2Proof.Machine

/-- `bitlen(n)`: the number of bits of n, 0 for n = 0 (R8). -/
def bitlen (n : Nat) : Nat := if n = 0 then 0 else n.log2 + 1

/-- The number of decimal digits of n, looking at no more than the given number of digits. -/
def digitCount : Nat → Nat → Nat
  | 0, _ => 0
  | fuel + 1, n => if n = 0 then 0 else digitCount fuel (n / 10) + 1

/-- `ndig(n)`: the number of decimal digits of n, 0 for n = 0 (R8); a number has no more digits than bits. -/
def ndig (n : Nat) : Nat := digitCount (bitlen n) n

/-- R170: the shifted value; every count n ≥ W gives 0. -/
def lshResult (w : Width) (a n : Nat) : Result :=
  { r := if bits w ≤ n then 0 else a * 2 ^ n % 2 ^ bits w }

/-- R171: the logical right shift; every count n ≥ W gives 0. -/
def rshResult (w : Width) (a n : Nat) : Result :=
  { r := if bits w ≤ n then 0 else a / 2 ^ n }

/-- R172: the number of zero bits above the top one bit of the W bits. -/
def lzcResult (w : Width) (a : Nat) : Result := { r := bits w - bitlen a }

/-- R173, R235: the digit count less 1; DOMAIN for 0. -/
def log10Outcome (a : Nat) : Except CommandError Result :=
  if a = 0 then .error .domain else .ok { r := ndig a - 1 }

/-- R170: LSH.W reads A_W and the count B0. -/
def runLsh (w : Width) (s : State) : Answer :=
  runCommand (fun f => .ok (lshResult w (f.a.low w) f.b.first)) s

/-- R171: RSH.W reads A_W and the count B0. -/
def runRsh (w : Width) (s : State) : Answer :=
  runCommand (fun f => .ok (rshResult w (f.a.low w) f.b.first)) s

/-- R172: LZC.W reads A_W. -/
def runLzc (w : Width) (s : State) : Answer :=
  runCommand (fun f => .ok (lzcResult w (f.a.low w))) s

/-- R173: LOG10.128 reads A_128. -/
def runLog10 (s : State) : Answer :=
  runCommand (fun f => log10Outcome (f.a.low .w128)) s

/-- LSH.128 (R170). -/
def execLsh_128 (s : State) : Answer := runLsh .w128 s

/-- LSH.192 (R170). -/
def execLsh_192 (s : State) : Answer := runLsh .w192 s

/-- LSH.256 (R170). -/
def execLsh_256 (s : State) : Answer := runLsh .w256 s

/-- RSH.128 (R171). -/
def execRsh_128 (s : State) : Answer := runRsh .w128 s

/-- RSH.192 (R171). -/
def execRsh_192 (s : State) : Answer := runRsh .w192 s

/-- RSH.256 (R171). -/
def execRsh_256 (s : State) : Answer := runRsh .w256 s

/-- LZC.128 (R172). -/
def execLzc_128 (s : State) : Answer := runLzc .w128 s

/-- LZC.192 (R172). -/
def execLzc_192 (s : State) : Answer := runLzc .w192 s

/-- LZC.256 (R172). -/
def execLzc_256 (s : State) : Answer := runLzc .w256 s

/-- LOG10.128 (R173). -/
def execLog10_128 (s : State) : Answer := runLog10 s

end Sys2Proof.Machine
end

