-- ==== Sys2Proof/Machine/Reduce.lean ====
section
/-!
DEFINITION. REDUCE, the decimal normalization and rounding pipeline (44_reduce.md), step by step as R190 names the steps.
-/

namespace Sys2Proof.Machine

/-- P, the precision in decimal digits (R6, R191). -/
def precision : Nat := 34

/-- BIAS (R6, R191). -/
def bias : Int := 6176

/-- EMIN, the least biased exponent (R6, R191). -/
def eMin : Int := 0

/-- EMAX, the greatest biased exponent (R6, R191). -/
def eMax : Int := 12287

/-- Step 1: how many digits the precision discards, k1 = max(0, ndig(S) − P) (R192). -/
def precisionDigits (sig : Nat) : Nat := ndig sig - precision

/-- Step 2: how many further digits the underflow discards, k2 = max(0, EMIN − E1) (R193). -/
def underflowDigits (e1 : Int) : Nat := (eMin - e1).toNat

/-- The round digit d: the most significant of the k discarded digits, 0 when k = 0 (R194). -/
def roundDigit (sig k : Nat) : Nat := if k = 0 then 0 else sig % 10 ^ k / 10 ^ (k - 1)

/-- The discarded digits below the round digit, 0 when k = 0 (R194). -/
def belowRoundDigit (sig k : Nat) : Nat := if k = 0 then 0 else sig % 10 ^ k % 10 ^ (k - 1)

/-- The truncation state the rounding decision reads: HI when a digit below the round digit is not 0 (R195). -/
def truncState (below : Nat) (tin : Trunc) : Trunc := if below ≠ 0 then .hi else tin

/-- Step 3, headroom, in the closed form of R197: while the exponent exceeds EMAX and q has fewer than P digits, q is
multiplied by 10 and the exponent falls by 1. For q = 0 the loop runs down to EMAX. -/
def headroom (q : Nat) (e : Int) : Nat × Int :=
  if e ≤ eMax then (q, e)
  else if q = 0 then (0, eMax)
  else
    let j := min (e - eMax).toNat (precision - ndig q)
    (q * 10 ^ j, e - j)

/-- `AWAY = (d ≠ 0 or T = HI)`. -/
def away (d : Nat) (t : Trunc) : Bool := d != 0 || t == .hi

/-- `DOWN = (T = LO and d = 0 and q > 0)`. -/
def down (d : Nat) (t : Trunc) (q : Nat) : Bool := t == .lo && d == 0 && q != 0

/-- The increment of ToZero (R200). -/
def incToZero (d : Nat) (t : Trunc) (q : Nat) : Int := if down d t q then -1 else 0

/-- The increment of AwayFromZero (R201). -/
def incAway (d : Nat) (t : Trunc) : Int := if away d t then 1 else 0

/-- Step 4: the rounding decision, by mode (R198 to R203). `sgn` is true for a negative value. -/
def roundInc (m : Rounding) (sgn : Bool) (d : Nat) (t : Trunc) (q : Nat) : Int :=
  match m with
  | .ne => if d > 5 ∨ (d = 5 ∧ (t = .hi ∨ q % 2 = 1)) then 1 else 0
  | .na => if d ≥ 5 then 1 else 0
  | .tz => incToZero d t q
  | .az => incAway d t
  | .tn => if sgn then incAway d t else incToZero d t q
  | .tp => if sgn then incToZero d t q else incAway d t

/-- Step 5: the rounding carry (R204). -/
def carryDigit (q : Nat) (e : Int) : Nat × Int :=
  if q = 10 ^ precision then (10 ^ (precision - 1), e + 1) else (q, e)

/-- What a reduction writes, its significand and exponent given (R205, R206). -/
def reduced (q : Nat) (e : Int) (t : Trunc) (d : Nat) : Result :=
  { r := q, ovf := decide (e > eMax), trunc := t, rd := d, expo := some e }

/-- R190: the whole reduction of the significand S at the exponent E. -/
def reduceResult (sig : Nat) (e : Int) (m : Rounding) (sgn : Bool) (tin : Trunc) : Result :=
  let k1 := precisionDigits sig
  let e1 := e + k1
  let k2 := underflowDigits e1
  let k := k1 + k2
  let q := sig / 10 ^ k
  let d := roundDigit sig k
  let t := truncState (belowRoundDigit sig k) tin
  let e2 := e1 + k2
  if k2 > 0 ∧ q = 0 then reduced 0 bias t d
  else
    let h := headroom q e2
    let c := carryDigit (h.1 + roundInc m sgn d t h.1).toNat h.2
    reduced c.1 c.2 t d

/-- R190: REDUCE.W reads A_W and EXPI[15:0]; RM = 6 takes the mode of CFG[2:0] (R210). RM = 7 and TIN = 0b11 make the
command illegal (R84, R86, R233). -/
def runReduce (w : Width) (rm : BitVec 3) (sgn : Bool) (tin : BitVec 2) (s : State) : Answer :=
  match roundingOf rm s.cfg.defMode, truncOf tin with
  | some m, some t =>
    runCommand (fun f => .ok (reduceResult (f.a.low w) (exponentIn f.expi) m sgn t)) s
  | none, _ => runIllegal s
  | some _, none => runIllegal s

/-- REDUCE.128 (R190). -/
def execReduce_128 (rm : BitVec 3) (sgn : Bool) (tin : BitVec 2) (s : State) : Answer := runReduce .w128 rm sgn tin s

/-- REDUCE.192 (R190). -/
def execReduce_192 (rm : BitVec 3) (sgn : Bool) (tin : BitVec 2) (s : State) : Answer := runReduce .w192 rm sgn tin s

/-- REDUCE.256 (R190). -/
def execReduce_256 (rm : BitVec 3) (sgn : Bool) (tin : BitVec 2) (s : State) : Answer := runReduce .w256 rm sgn tin s

end Sys2Proof.Machine
end

