-- ==== Sys2Proof/Machine/Dispatch.lean ====
section
/-!
DEFINITION. One arm per command of the opcode table (R89).
-/

namespace Sys2Proof.Machine

def exec (i : Instr) (s : State) : Host.Outcome State Fault Refusal :=
  match i with
  | .add_128 => Sys2Proof.Machine.execAdd_128 s
  | .add_192 => Sys2Proof.Machine.execAdd_192 s
  | .add_256 => Sys2Proof.Machine.execAdd_256 s
  | .sub_128 => Sys2Proof.Machine.execSub_128 s
  | .sub_192 => Sys2Proof.Machine.execSub_192 s
  | .sub_256 => Sys2Proof.Machine.execSub_256 s
  | .neg_128 => Sys2Proof.Machine.execNeg_128 s
  | .neg_192 => Sys2Proof.Machine.execNeg_192 s
  | .neg_256 => Sys2Proof.Machine.execNeg_256 s
  | .mul_128 => Sys2Proof.Machine.execMul_128 s
  | .mul_192 => Sys2Proof.Machine.execMul_192 s
  | .mul_256 => Sys2Proof.Machine.execMul_256 s
  | .mul64_128 => Sys2Proof.Machine.execMul64_128 s
  | .mul64_192 => Sys2Proof.Machine.execMul64_192 s
  | .mul64_256 => Sys2Proof.Machine.execMul64_256 s
  | .mulp10_128_1 => Sys2Proof.Machine.execMulP10_128_1 s
  | .mulp10_128_2 => Sys2Proof.Machine.execMulP10_128_2 s
  | .mulp10_128_3 => Sys2Proof.Machine.execMulP10_128_3 s
  | .mulp10_128_4 => Sys2Proof.Machine.execMulP10_128_4 s
  | .mulp10_128_8 => Sys2Proof.Machine.execMulP10_128_8 s
  | .mulp10_128_19 => Sys2Proof.Machine.execMulP10_128_19 s
  | .mulp10_128_38 => Sys2Proof.Machine.execMulP10_128_38 s
  | .mulp10_192_1 => Sys2Proof.Machine.execMulP10_192_1 s
  | .mulp10_192_2 => Sys2Proof.Machine.execMulP10_192_2 s
  | .mulp10_192_3 => Sys2Proof.Machine.execMulP10_192_3 s
  | .mulp10_192_4 => Sys2Proof.Machine.execMulP10_192_4 s
  | .mulp10_192_8 => Sys2Proof.Machine.execMulP10_192_8 s
  | .mulp10_192_19 => Sys2Proof.Machine.execMulP10_192_19 s
  | .mulp10_192_38 => Sys2Proof.Machine.execMulP10_192_38 s
  | .mulp10_256_1 => Sys2Proof.Machine.execMulP10_256_1 s
  | .mulp10_256_2 => Sys2Proof.Machine.execMulP10_256_2 s
  | .mulp10_256_3 => Sys2Proof.Machine.execMulP10_256_3 s
  | .mulp10_256_4 => Sys2Proof.Machine.execMulP10_256_4 s
  | .mulp10_256_8 => Sys2Proof.Machine.execMulP10_256_8 s
  | .mulp10_256_19 => Sys2Proof.Machine.execMulP10_256_19 s
  | .mulp10_256_38 => Sys2Proof.Machine.execMulP10_256_38 s
  | .div_128 => Sys2Proof.Machine.execDiv_128 s
  | .div_192 => Sys2Proof.Machine.execDiv_192 s
  | .div_256 => Sys2Proof.Machine.execDiv_256 s
  | .divp10_128_1 => Sys2Proof.Machine.execDivP10_128_1 s
  | .divp10_128_3 => Sys2Proof.Machine.execDivP10_128_3 s
  | .divp10_128_4 => Sys2Proof.Machine.execDivP10_128_4 s
  | .divp10_128_8 => Sys2Proof.Machine.execDivP10_128_8 s
  | .divp10_128_19 => Sys2Proof.Machine.execDivP10_128_19 s
  | .divp10_192_1 => Sys2Proof.Machine.execDivP10_192_1 s
  | .divp10_192_3 => Sys2Proof.Machine.execDivP10_192_3 s
  | .divp10_192_4 => Sys2Proof.Machine.execDivP10_192_4 s
  | .divp10_192_8 => Sys2Proof.Machine.execDivP10_192_8 s
  | .divp10_192_19 => Sys2Proof.Machine.execDivP10_192_19 s
  | .divp10_256_1 => Sys2Proof.Machine.execDivP10_256_1 s
  | .divp10_256_3 => Sys2Proof.Machine.execDivP10_256_3 s
  | .divp10_256_4 => Sys2Proof.Machine.execDivP10_256_4 s
  | .divp10_256_8 => Sys2Proof.Machine.execDivP10_256_8 s
  | .divp10_256_19 => Sys2Proof.Machine.execDivP10_256_19 s
  | .lsh_128 => Sys2Proof.Machine.execLsh_128 s
  | .lsh_192 => Sys2Proof.Machine.execLsh_192 s
  | .lsh_256 => Sys2Proof.Machine.execLsh_256 s
  | .rsh_128 => Sys2Proof.Machine.execRsh_128 s
  | .rsh_192 => Sys2Proof.Machine.execRsh_192 s
  | .rsh_256 => Sys2Proof.Machine.execRsh_256 s
  | .lzc_128 => Sys2Proof.Machine.execLzc_128 s
  | .lzc_192 => Sys2Proof.Machine.execLzc_192 s
  | .lzc_256 => Sys2Proof.Machine.execLzc_256 s
  | .log10_128 => Sys2Proof.Machine.execLog10_128 s
  | .reduce_128 rm sgn tin => Sys2Proof.Machine.execReduce_128 rm sgn tin s
  | .reduce_192 rm sgn tin => Sys2Proof.Machine.execReduce_192 rm sgn tin s
  | .reduce_256 rm sgn tin => Sys2Proof.Machine.execReduce_256 rm sgn tin s

end Sys2Proof.Machine
end

