-- ==== Sys2Proof/Machine/Step.lean ====
section
/-!
DEFINITION. One step of the machine: one cycle (R31, R67).
-/

namespace Sys2Proof.Machine

/-- One cycle: the unit moves on, or the command in flight completes with its meaning. -/
def step (s : State) : Host.Outcome State Fault Refusal :=
  match s.cycle with
  | .advance t => .next t
  | .complete i => exec i s

/-- The state in which the next step completes the command given as a number (R80: one 64-bit word). -/
def State.withFetchWord (s : State) (nbits w : Nat) : State :=
  s.placeCommand (BitVec.ofNat 64 (w % 2 ^ nbits))

end Sys2Proof.Machine
end

