-- ==== Sys2Proof/Machine/HostNotation.lean ====
section
/-!
DEFINITION. The host as an agent beside the unit (R20): the host notation of R98, its statements, their expansion into
accesses of the window, and how such a program runs against `step` (R269). Nothing of it is state of the unit.
-/

namespace Sys2Proof.Machine

/-- A variable of the host: one a program names, `s` of WAIT, or `t` of MOV (R98). -/
inductive HostVar where
  | named (n : Nat) | status | temp
deriving DecidableEq, Repr

/-- What a statement writes: a number or a variable (R98). -/
inductive HostValue where
  | const (v : Nat) | var (x : HostVar)
deriving DecidableEq, Repr

/-- The groups a host writes, G ∈ {A, B} (R98). -/
inductive OperandGroup where
  | a | b
deriving DecidableEq, Repr

/-- The groups a host moves from, H ∈ {R, X} (R98). -/
inductive ResultGroup where
  | r | x
deriving DecidableEq, Repr

/-- The bits of the status a branch reads (R98). -/
inductive BranchOn where
  | carry | zero | error
deriving DecidableEq, Repr

/-- A statement of the host notation (R98). A label is the number of a statement. -/
inductive HostStmt where
  | wr (g : Reg) (v : HostValue)
  | wrg (g : OperandGroup) (v : HostValue)
  | rd (t : HostVar) (g : Reg)
  | mov (g : OperandGroup) (h : ResultGroup)
  | cmd (c : Instr)
  | wait
  | exec (c : Instr)
  | br (on : BranchOn) (label : Nat)
  | jmp (label : Nat)
  | halt
deriving DecidableEq, Repr

/-- One host access a statement expands to, or the branch back that ends WAIT's loop (R98). -/
inductive HostOp where
  /-- `MemWrite(BASE + off(g), 8, limb(v, i))` -/
  | write (g : Reg) (v : HostValue) (i : Nat)
  /-- `t <- MemRead(BASE + off(g), 8)` -/
  | read (t : HostVar) (g : Reg)
  /-- `if s[0] == 1 goto loop` -/
  | loopIfBusy
deriving DecidableEq, Repr

/-- Where the host stands. -/
inductive HostPhase where
  /-- its next access or statement is to come -/
  | running
  /-- it has sent an access and waits for the answer; a read's value goes to the variable -/
  | awaiting (t : Option HostVar)
  /-- it has reached HALT or the end of its program (R269) -/
  | halted
  /-- a bus error answered it, or it used a variable with no value: it has no defined continuation (I8) -/
  | stopped
deriving DecidableEq, Repr

/-- The host: its program, the next statement, the rest of the present one, and its variables. -/
structure HostAgent where
  program : List HostStmt
  next    : Nat
  todo    : List HostOp
  vars    : List (HostVar × Word)
  phase   : HostPhase
deriving DecidableEq, Repr

/-- The host and the unit (R20). -/
structure System where
  host : HostAgent
  core : State
deriving DecidableEq, Repr

/-- Limb i of an operand group. -/
def OperandGroup.reg : OperandGroup → Fin 4 → Reg
  | .a, i => .a i
  | .b, i => .b i

/-- Limb i of a result group. -/
def ResultGroup.reg : ResultGroup → Fin 4 → Reg
  | .r, i => .r i
  | .x, i => .x i

/-- WAIT: `loop: RD s, STAT; if s[0] == 1 goto loop` (R98). -/
def waitOps : List HostOp := [.read .status .stat, .loopIfBusy]

/-- `CMD c`: `WR CMD, encode(c)` (R98). -/
def cmdOps (c : Instr) : List HostOp := [.write .cmd (.const (encode c).toNat) 0]

/-- The accesses of a statement (R98); a statement of control has none. -/
def HostStmt.expand : HostStmt → List HostOp
  | .wr g v => [.write g v 0]
  | .wrg g v => [.write (g.reg 0) v 0, .write (g.reg 1) v 1, .write (g.reg 2) v 2, .write (g.reg 3) v 3]
  | .rd t g => [.read t g]
  | .mov g h =>
    [.read .temp (h.reg 0), .write (g.reg 0) (.var .temp) 0, .read .temp (h.reg 1), .write (g.reg 1) (.var .temp) 0,
     .read .temp (h.reg 2), .write (g.reg 2) (.var .temp) 0, .read .temp (h.reg 3), .write (g.reg 3) (.var .temp) 0]
  | .cmd c => cmdOps c
  | .wait => waitOps
  | .exec c => cmdOps c ++ waitOps
  | .br _ _ => []
  | .jmp _ => []
  | .halt => []

/-- The value of a variable. -/
def lookupVar (x : HostVar) : List (HostVar × Word) → Option Word
  | [] => none
  | (y, v) :: rest => if x = y then some v else lookupVar x rest

/-- The number a value stands for. -/
def HostValue.eval (vars : List (HostVar × Word)) : HostValue → Option Nat
  | .const v => some v
  | .var x => (lookupVar x vars).map (fun v => v.toNat)

/-- A variable takes a value. -/
def HostAgent.assign (h : HostAgent) (t : Option HostVar) (v : Word) : HostAgent :=
  match t with
  | some x => { h with vars := (x, v) :: h.vars }
  | none => h

/-- The bit of the status `s` a branch tests: s[1], s[2], or s[11:8] ≠ 0 (R98). -/
def branchTaken (on : BranchOn) (s : Word) : Bool :=
  match on with
  | .carry => s.getLsbD 1
  | .zero => s.getLsbD 2
  | .error => s.extractLsb' 8 4 != 0#4

/-- The host begins its next statement. -/
def HostAgent.fetch (h : HostAgent) : HostAgent :=
  match h.program[h.next]? with
  | none => { h with phase := .halted }
  | some .halt => { h with phase := .halted }
  | some (.jmp l) => { h with next := l }
  | some (.br on l) =>
    match lookupVar .status h.vars with
    | some s => { h with next := if branchTaken on s then l else h.next + 1 }
    | none => { h with phase := .stopped }
  | some c => { h with next := h.next + 1, todo := c.expand }

/-- The host sends one access to the unit (R61, R98): it is the unit's next input. -/
def System.send (acc : Access) (t : Option HostVar) (rest : List HostOp) (y : System) : System :=
  { host := { y.host with todo := rest, phase := .awaiting t }
    core := { y.core with inbox := y.core.inbox ++ [.access acc] } }

/-- The host carries out one access of its present statement, or begins the next statement. -/
def System.hostOp (y : System) : System :=
  match y.host.todo with
  | [] => { y with host := y.host.fetch }
  | .write g v i :: rest =>
    match v.eval y.host.vars with
    | some n => y.send (.write (offsetOf g) 8 (BitVec.ofNat 64 (n / 2 ^ (64 * i)))) none rest
    | none => { y with host := { y.host with phase := .stopped } }
  | .read t g :: rest => y.send (.read (offsetOf g) 8) (some t) rest
  | .loopIfBusy :: rest =>
    match lookupVar .status y.host.vars with
    | some s => { y with host := { y.host with todo := if s.getLsbD 0 then waitOps ++ rest else rest } }
    | none => { y with host := { y.host with phase := .stopped } }

/-- The host takes the answer to its access, if it is there. -/
def System.hostAnswer (t : Option HostVar) (y : System) : System :=
  match y.core.responses with
  | [] => y
  | ans :: rest =>
    let core := { y.core with responses := rest }
    match ans with
    | .data v => { host := HostAgent.assign { y.host with phase := .running } t v, core := core }
    | .done => { host := { y.host with phase := .running }, core := core }
    | .busError => { host := { y.host with phase := .stopped }, core := core }

/-- One move of the host. -/
def System.hostTurn (y : System) : System :=
  match y.host.phase with
  | .running => y.hostOp
  | .awaiting t => y.hostAnswer t
  | .halted => y
  | .stopped => y

/-- One step of the two agents: a move of the host, then a cycle of the unit. -/
def System.step (y : System) : Host.Outcome System Fault Refusal :=
  let z := y.hostTurn
  match Machine.step z.core with
  | .next t => .next { z with core := t }
  | .fault e => .fault e
  | .refused e => .refused e

/-- The system at the start of a program: the unit just reset (R269, R260). -/
def System.initial (program : List HostStmt) : System :=
  { host := { program := program, next := 0, todo := [], vars := [], phase := .running }, core := State.reset }

end Sys2Proof.Machine
end

