-- ==== Sys2Proof/Safety.lean ====
section
/-!
DEFINITION. What statements about the machine are phrased with: the invariant every reachable state meets, a safe run, and
what a command may not change.
-/

namespace Sys2Proof.Machine

/-- Every field of STAT but ERR is 0: what `fail(code)` leaves beside the code (R231). -/
def Status.bare (t : Status) : Prop :=
  t.c = false ∧ t.z = false ∧ t.ovf = false ∧ t.trunc = .ex ∧ t.rd = 0#4

/-- What holds of every state the machine can reach.
* BUSY = 1 exactly while a command is in flight (R31, R39), and it is busy for 1 to LAT_MAX cycles (R263).
* The round digit is a digit (R30), a STAT with an error reports nothing else (R231).
* EXPO, once a REDUCE has set it (R260 leaves it unspecified until then), is an exponent of R208.
* A command in flight that read an operand nothing had set at its CMD write is in the record (R261).
* After a command that succeeded, Z says whether R is zero (R33). -/
structure State.Inv (s : State) : Prop where
  busy_iff   : s.stat.busy = true ↔ s.inFlight ≠ none
  latency_in : ∀ f, s.inFlight = some f → 1 ≤ f.cyclesLeft ∧ f.cyclesLeft ≤ Config.latMax
  digit      : s.stat.rd.toNat ≤ 9
  bare       : s.stat.err ≠ none → s.stat.bare
  noted      : ∀ f, s.inFlight = some f → (wordReads s.cmd).allSet f.written = false → s.ghost.unsetRead = true
  exponent   : s.written.expo = true → s.expo.toNat ≤ 32812
  zero       : s.written.results = true → s.stat.err = none → s.stat.z = s.r.isZero

/-- The answer of the machine after so many cycles, stopping at the first that answers no next state. -/
def State.after : Nat → State → Answer
  | 0, s => .next s
  | n + 1, s =>
    match step s with
    | .next t => t.after n
    | .fault r => .fault r
    | .refused r => .refused r

/-- Nothing a host program must not do has been recorded (R240, R261, I8): what a safe run keeps. -/
def State.Clean (s : State) : Prop := s.ghost = Ghost.clear

/-- What no command of R89 changes: the operands, EXPI, CMD, CFG (R23, R24, R27, R29, R38), which of the operands had been
set, and what is outside the unit: the inputs to come, the answers given and the record of bus errors
and of unset reads, which were made before. -/
structure State.SameInputs (s t : State) : Prop where
  a : t.a = s.a
  b : t.b = s.b
  expi : t.expi = s.expi
  cmd : t.cmd = s.cmd
  cfg : t.cfg = s.cfg
  written_a : t.written.a = s.written.a
  written_b : t.written.b = s.written.b
  written_expi : t.written.expi = s.written.expi
  draws : t.draws = s.draws
  inbox : t.inbox = s.inbox
  responses : t.responses = s.responses
  bus_error : t.ghost.busError = s.ghost.busError
  unset_read : t.ghost.unsetRead = s.ghost.unsetRead

/-- What a failed command leaves as it was (R231, R238). -/
structure State.SameResults (s t : State) : Prop where
  r : t.r = s.r
  x : t.x = s.x
  expo : t.expo = s.expo
  written : t.written = s.written

/-- `t` is `s` after a command other than REDUCE succeeded with the number `r` in R, `x` in X and the flag `c`
(R25, R26, R30, R33, R110); the frame is `inputs` and `expo_eq`. R and X are marked as set (R261). -/
structure Completion (s t : State) (r x : Nat) (c : Bool) : Prop where
  r_eq : t.r.toNat = r
  x_eq : t.x.toNat = x
  stat_eq : t.stat =
    { busy := false, c := c, z := decide (r = 0), ovf := false, trunc := .ex, err := none, rd := 0#4 }
  expo_eq : t.expo = s.expo
  results_set : t.written.results = true
  expo_mark : t.written.expo = s.written.expo
  idle : t.inFlight = none
  not_failed : t.ghost.commandFailed = s.ghost.commandFailed
  inputs : s.SameInputs t

/-- `t` is `s` after a command failed with the code `e` (R231). The failure is recorded (R240). -/
structure Failure (s t : State) (e : CommandError) : Prop where
  stat_eq : t.stat = { busy := false, c := false, z := false, ovf := false, trunc := .ex, err := some e, rd := 0#4 }
  results : s.SameResults t
  idle : t.inFlight = none
  recorded : t.ghost.commandFailed = true
  inputs : s.SameInputs t

/-- `t` is `s` after REDUCE wrote the significand `q`, the exponent `e`, the truncation state `tr` and the round digit `d`
(R205, R206). R, X and EXPO are marked as set (R261). -/
structure ReduceCompletion (s t : State) (q : Nat) (e : Int) (tr : Trunc) (d : Nat) : Prop where
  r_eq : t.r.toNat = q
  x_eq : t.x.toNat = 0
  expo_eq : t.expo.toInt = e
  busy_eq : t.stat.busy = false
  c_eq : t.stat.c = false
  z_eq : t.stat.z = decide (q = 0)
  ovf_eq : t.stat.ovf = decide (12287 < e)
  trunc_eq : t.stat.trunc = tr
  err_eq : t.stat.err = none
  rd_eq : t.stat.rd.toNat = d
  results_set : t.written.results = true
  expo_set : t.written.expo = true
  idle : t.inFlight = none
  not_failed : t.ghost.commandFailed = s.ghost.commandFailed
  inputs : s.SameInputs t

/-- The loop of step 3 as R190 writes it, at most the given number of times round:
`while E2 > EMAX and q * 10 < 10^P: q <- q * 10; E2 <- E2 - 1`. -/
def headroomLoop : Nat → Nat → Int → Nat × Int
  | 0, q, e => (q, e)
  | n + 1, q, e => if 12287 < e ∧ q * 10 < 10 ^ 34 then headroomLoop n (q * 10) (e - 1) else (q, e)

/-- Stripping one digit at a time (steps 1 and 2 of the source, R192, R193): the significand left, the last digit stripped,
and whether a digit stripped before it was not 0. -/
def stripDigits : Nat → Nat → Nat × Nat × Bool
  | 0, q => (q, 0, false)
  | k + 1, q =>
    let z := stripDigits k q
    (z.1 / 10, z.1 % 10, z.2.2 || z.2.1 != 0)

end Sys2Proof.Machine
end

