-- ==== Sys2Proof/Certificates/Slice0/Obligations.lean ====
section
/-!
DEFINITION. The statements for the provers. In every statement about a command, `s.inFlight = some f` says that a command is in
flight with the snapshot `f` (R39): `f.a.low w` is A_W, `f.b.low w` is B_W, `f.b.l0` is B0. A `Completion`, a
`ReduceCompletion` and a `Failure` also say what the model's own bookkeeping does beside the registers: R and X, and EXPO after
REDUCE, are marked as set (R261, log entry 1), and a failure is recorded (R240, log entry 5).
-/

open Sys2Proof Sys2Proof.Machine

/-! ## Encoding -/

/-- R97: the six example words of the rule, decoded and encoded. -/
def Obligations.ExampleWordsDecode : Prop :=
  (decode 0x0000000000000101#64 = .ok .add_128 ∧ encode .add_128 = 0x0000000000000101#64) ∧
  (decode 0x0000000000000202#64 = .ok .sub_192 ∧ encode .sub_192 = 0x0000000000000202#64) ∧
  (decode 0x0000000000004D12#64 = .ok .mulp10_128_19 ∧ encode .mulp10_128_19 = 0x0000000000004D12#64) ∧
  (decode 0x0000000000004F21#64 = .ok .divp10_256_19 ∧ encode .divp10_256_19 = 0x0000000000004F21#64) ∧
  (decode 0x0000000000000340#64 = .ok (.reduce_256 0#3 false 0#2) ∧
    encode (.reduce_256 0#3 false 0#2) = 0x0000000000000340#64) ∧
  (decode 0x00000000002D0140#64 = .ok (.reduce_128 5#3 true 2#2) ∧
    encode (.reduce_128 5#3 true 2#2) = 0x00000000002D0140#64)

/-- R95, R97: every legal instruction is read back from its own word. -/
def Obligations.EncodeThenDecode : Prop :=
  ∀ i : Instr, i.wellFormed = true → decode (encode i) = .ok i

/-- R94, R95: a word the decoder accepts is the word of a legal instruction, and of no other. -/
def Obligations.DecodeThenEncode : Prop :=
  ∀ (v : Word) (i : Instr), decode v = .ok i → encode i = v ∧ i.wellFormed = true

/-- R95: the words the decoder rejects, by the conditions of its pseudocode on the fields as numbers. -/
def Obligations.DecodeRejectsExactlyTheIllegalWords : Prop :=
  ∀ v : Word,
    let n := v.toNat
    let opc := n % 2 ^ 8
    let wf := n / 2 ^ 8 % 2 ^ 2
    let k := n / 2 ^ 10 % 2 ^ 6
    let rm := n / 2 ^ 16 % 2 ^ 3
    let sgn := n / 2 ^ 19 % 2
    let tin := n / 2 ^ 20 % 2 ^ 2
    (∃ e, decode v = .error e) ↔
      n / 2 ^ 22 ≠ 0 ∨
      opc ∉ [0x01, 0x02, 0x03, 0x10, 0x11, 0x12, 0x20, 0x21, 0x30, 0x31, 0x38, 0x39, 0x40] ∨
      wf = 0 ∨
      (opc = 0x39 ∧ wf ≠ 1) ∨
      (opc = 0x40 ∧ (k ≠ 0 ∨ rm = 7 ∨ tin = 3)) ∨
      (opc ≠ 0x40 ∧
        (rm ≠ 0 ∨ sgn ≠ 0 ∨ tin ≠ 0 ∨
          (opc = 0x12 ∧ k ∉ [1, 2, 3, 4, 8, 19, 38]) ∨
          (opc = 0x21 ∧ k ∉ [1, 3, 4, 8, 19]) ∨
          (opc ≠ 0x12 ∧ opc ≠ 0x21 ∧ k ≠ 0)))

/-! ## The step -/

/-- R31, R39: when the cycle of completion has come and no reset is presented, a step is the meaning of the word in CMD. In every
other cycle a step lets one cycle of the latency pass and takes the first input, whole and once: nothing, a quiet cycle, or one host
access, in the order received (R67, R29, R65). That a cycle takes at most one input, and the cycle of completion none, is the
MODEL'S CHOICE (log entry 2). -/
def Obligations.StepRunsTheDecodedCommand : Prop :=
  (∀ (s : State) (f : InFlight) (i : Instr), s.inFlight = some f → f.cyclesLeft ≤ 1 → s.resetNow = false →
    decode s.cmd = .ok i → step s = exec i s) ∧
  ∀ s : State, (∀ f, s.inFlight = some f → 1 < f.cyclesLeft) →
    let passed : State :=
      { s with inFlight := s.inFlight.map (fun f => { f with cyclesLeft := f.cyclesLeft - 1 }) }
    (s.inbox = [] → step s = .next passed) ∧
    (∀ rest, s.inbox = .quiet :: rest → step s = .next { passed with inbox := rest }) ∧
    (∀ acc rest, s.inbox = .access acc :: rest → step s = .next (State.perform acc { passed with inbox := rest }))

/-- R233, R231: a word the decoder rejects completes as a failure with ILLEGAL. -/
def Obligations.IllegalWordFailsWithIllegal : Prop :=
  ∀ (s : State) (f : InFlight) (e : IllegalWord), s.inFlight = some f → f.cyclesLeft ≤ 1 → s.resetNow = false →
    decode s.cmd = .error e → ∃ t, step s = .next t ∧ Failure s t .illegal

/-- R39, R80: a command placed by `withFetchWord` is the one the next step runs, on the registers as they are. -/
def Obligations.PlacedCommandRunsNext : Prop :=
  ∀ (s : State) (i : Instr), i.wellFormed = true →
    step (s.withFetchWord 64 (encode i).toNat) = exec i (s.withFetchWord 64 (encode i).toNat) ∧
      ∃ f, (s.withFetchWord 64 (encode i).toNat).inFlight = some f ∧ f.a = s.a ∧ f.b = s.b ∧
        f.expi.toNat = s.expi.toNat % 2 ^ 16

/-- The machine never stops: from every state, reachable or not, a step answers a next state. R230 and R94 say so of commands;
that a bus error and a read of an unset register are next states too, where R261, I8 and I13 call them faults, is the MODEL'S
CHOICE (log entries 1 and 6). -/
def Obligations.EveryStepAnswersANextState : Prop :=
  ∀ s : State, ∃ t, step s = .next t

/-! ## Adder and subtractor -/

/-- R111: ADD.W leaves the exact sum in X:R, and the carry out of bit W − 1 in C. -/
def Obligations.AddCompletesWithTheWidenedSum : Prop :=
  ∀ (w : Width) (s : State) (f : InFlight), s.inFlight = some f →
    ∃ t r x, exec (.add w) s = .next t ∧ r + 2 ^ 256 * x = f.a.low w + f.b.low w ∧ r < 2 ^ 256 ∧
      Completion s t r x (decide (2 ^ bits w ≤ f.a.low w + f.b.low w))

/-- R112: SUB.W leaves the difference, taken modulo 2^W where it is negative, and the borrow in C. -/
def Obligations.SubCompletesWithTheDifference : Prop :=
  ∀ (w : Width) (s : State) (f : InFlight), s.inFlight = some f →
    ∃ t r, exec (.sub w) s = .next t ∧ r < 2 ^ bits w ∧
      (if f.a.low w < f.b.low w then r + f.b.low w = f.a.low w + 2 ^ bits w else r + f.b.low w = f.a.low w) ∧
      Completion s t r 0 (decide (f.a.low w < f.b.low w))

/-- R113: NEG.W leaves the number that A_W adds up to 2^W with, 0 for 0. -/
def Obligations.NegCompletesWithTheTwosComplement : Prop :=
  ∀ (w : Width) (s : State) (f : InFlight), s.inFlight = some f →
    ∃ t r, exec (.neg w) s = .next t ∧ (if f.a.low w = 0 then r = 0 else r + f.a.low w = 2 ^ bits w) ∧
      Completion s t r 0 (decide (f.a.low w ≠ 0))

/-- R116: NEG.W of the result of SUB.W(b, a) is SUB.W(a, b); C of SUB.W(a, b) is 1 exactly when C of SUB.W(b, a) is 0 and
a ≠ b. -/
def Obligations.SubIsTheNegationOfTheSwappedSub : Prop :=
  ∀ (w : Width) (s s' u : State) (f f' g : InFlight) (t t' v : State),
    s.inFlight = some f → s'.inFlight = some f' → f'.a = f.b → f'.b = f.a →
    exec (.sub w) s = .next t → exec (.sub w) s' = .next t' →
    u.inFlight = some g → g.a = t'.r → exec (.neg w) u = .next v →
    v.r = t.r ∧ (t.stat.c = true ↔ t'.stat.c = false ∧ f.a.low w ≠ f.b.low w)

/-! ## Multiplier -/

/-- R130: MUL.W leaves the exact product in X:R. -/
def Obligations.MulCompletesWithTheProduct : Prop :=
  ∀ (w : Width) (s : State) (f : InFlight), s.inFlight = some f →
    ∃ t r x, exec (.mul w) s = .next t ∧ r + 2 ^ 256 * x = f.a.low w * f.b.low w ∧ r < 2 ^ 256 ∧
      Completion s t r x false

/-- R131: MUL64.W leaves the exact product of A_W and the one limb B0 in X0:R. -/
def Obligations.MulByOneLimbCompletesWithTheProduct : Prop :=
  ∀ (w : Width) (s : State) (f : InFlight), s.inFlight = some f →
    ∃ t r x, exec (.mul64 w) s = .next t ∧ r + 2 ^ 256 * x = f.a.low w * f.b.l0.toNat ∧ r < 2 ^ 256 ∧ x < 2 ^ 64 ∧
      Completion s t r x false

/-- R132: MULP10.W k leaves the exact product of A_W and 10^k in X1:X0:R. -/
def Obligations.MulByPowerOfTenCompletesWithTheProduct : Prop :=
  ∀ (w : Width) (k : MulFactor) (s : State) (f : InFlight), s.inFlight = some f →
    ∃ t r x, exec (.mulp10 w k) s = .next t ∧ r + 2 ^ 256 * x = f.a.low w * 10 ^ k.exponent ∧ r < 2 ^ 256 ∧
      x < 2 ^ 128 ∧ Completion s t r x false

/-! ## Divider -/

/-- R150, R152: DIV.W with B_W ≠ 0 leaves the floor quotient in R and the remainder in X. -/
def Obligations.DivCompletesWithQuotientAndRemainder : Prop :=
  ∀ (w : Width) (s : State) (f : InFlight), s.inFlight = some f → f.b.low w ≠ 0 →
    ∃ t q r, exec (.div w) s = .next t ∧ f.a.low w = q * f.b.low w + r ∧ r < f.b.low w ∧ Completion s t q r false

/-- R150, R234: DIV.W with B_W = 0 fails with DIVZERO and writes only STAT. -/
def Obligations.DivByZeroFails : Prop :=
  ∀ (w : Width) (s : State) (f : InFlight), s.inFlight = some f → f.b.low w = 0 →
    ∃ t, exec (.div w) s = .next t ∧ Failure s t .divZero

/-- R151: DIVP10.W k leaves the floor quotient by 10^k in R and the remainder, one limb, in X0. -/
def Obligations.DivByPowerOfTenCompletes : Prop :=
  ∀ (w : Width) (k : DivFactor) (s : State) (f : InFlight), s.inFlight = some f →
    ∃ t q r, exec (.divp10 w k) s = .next t ∧ f.a.low w = q * 10 ^ k.exponent + r ∧ r < 10 ^ k.exponent ∧
      r < 2 ^ 64 ∧ Completion s t q r false

/-! ## Shifts and counts -/

/-- R170: LSH.W leaves `(A_W * 2^n) mod 2^W`, for every 64-bit count n = B0. -/
def Obligations.LeftShiftCompletes : Prop :=
  ∀ (w : Width) (s : State) (f : InFlight), s.inFlight = some f →
    ∃ t, exec (.lsh w) s = .next t ∧ Completion s t (f.a.low w * 2 ^ f.b.l0.toNat % 2 ^ bits w) 0 false

/-- R171: RSH.W leaves `A_W div 2^n`, for every 64-bit count n = B0. -/
def Obligations.RightShiftCompletes : Prop :=
  ∀ (w : Width) (s : State) (f : InFlight), s.inFlight = some f →
    ∃ t, exec (.rsh w) s = .next t ∧ Completion s t (f.a.low w / 2 ^ f.b.l0.toNat) 0 false

/-- R172: LZC.W leaves the number n of zero bits above the top one bit: A_W < 2^(W−n), and bit W−n−1 is set unless n = W. -/
def Obligations.LeadingZeroCountCompletes : Prop :=
  ∀ (w : Width) (s : State) (f : InFlight), s.inFlight = some f →
    ∃ t n, exec (.lzc w) s = .next t ∧ n ≤ bits w ∧ f.a.low w < 2 ^ (bits w - n) ∧
      (n < bits w → 2 ^ (bits w - n - 1) ≤ f.a.low w) ∧ Completion s t n 0 false

/-- R173: LOG10.128 of a number that is not 0 leaves the exponent e of the power of ten below it. -/
def Obligations.DecimalLogarithmCompletes : Prop :=
  ∀ (s : State) (f : InFlight), s.inFlight = some f → f.a.low .w128 ≠ 0 →
    ∃ t e, exec .log10_128 s = .next t ∧ 10 ^ e ≤ f.a.low .w128 ∧ f.a.low .w128 < 10 ^ (e + 1) ∧ e ≤ 38 ∧
      Completion s t e 0 false

/-- R173, R235: LOG10.128 of 0 fails with DOMAIN and writes only STAT. -/
def Obligations.DecimalLogarithmOfZeroFails : Prop :=
  ∀ (s : State) (f : InFlight), s.inFlight = some f → f.a.low .w128 = 0 →
    ∃ t, exec .log10_128 s = .next t ∧ Failure s t .domain

/-- R175: shifting right what was shifted left by n < W gives A_W modulo 2^(W−n). -/
def Obligations.RightShiftUndoesLeftShift : Prop :=
  ∀ (w : Width) (s u : State) (f g : InFlight) (t v : State), s.inFlight = some f → f.b.l0.toNat < bits w →
    exec (.lsh w) s = .next t → u.inFlight = some g → g.a = t.r → g.b.l0 = f.b.l0 → exec (.rsh w) u = .next v →
    v.r.toNat = f.a.low w % 2 ^ (bits w - f.b.l0.toNat)

/-! ## REDUCE -/

/-- R198 to R203: the increment of step 4, by mode, sign (true for negative), round digit, truncation state and kept
significand. -/
def Obligations.RoundingDecisionTable : Prop :=
  ∀ (sgn : Bool) (d : Nat) (t : Trunc) (q : Nat),
    let AWAY := d ≠ 0 ∨ t = .hi
    let DOWN := t = .lo ∧ d = 0 ∧ 0 < q
    let toZero : Int → Prop := fun n => (DOWN → n = -1) ∧ (¬DOWN → n = 0)
    let awayFromZero : Int → Prop := fun n => (AWAY → n = 1) ∧ (¬AWAY → n = 0)
    ((5 < d ∨ (d = 5 ∧ (t = .hi ∨ q % 2 = 1)) → roundInc .ne sgn d t q = 1) ∧
      (¬(5 < d ∨ (d = 5 ∧ (t = .hi ∨ q % 2 = 1))) → roundInc .ne sgn d t q = 0)) ∧
    ((5 ≤ d → roundInc .na sgn d t q = 1) ∧ (d < 5 → roundInc .na sgn d t q = 0)) ∧
    toZero (roundInc .tz sgn d t q) ∧
    awayFromZero (roundInc .az sgn d t q) ∧
    ((sgn = true → awayFromZero (roundInc .tn sgn d t q)) ∧ (sgn = false → toZero (roundInc .tn sgn d t q))) ∧
    ((sgn = false → awayFromZero (roundInc .tp sgn d t q)) ∧ (sgn = true → toZero (roundInc .tp sgn d t q)))

/-- R190: REDUCE.W completes with what the pseudocode of R190 gives, its `while` loop run as a loop. The discarded part is
given by its defining equations: S = q * 10^k + r, r = d * 10^(k−1) + lo for k > 0, and d = lo = 0 for k = 0. -/
def Obligations.ReduceCompletesAsItsPseudocode : Prop :=
  ∀ (w : Width) (rm : BitVec 3) (sgn : Bool) (tin : BitVec 2) (m : Rounding) (tn : Trunc) (s : State) (f : InFlight),
    s.inFlight = some f → roundingOf rm s.cfg.defMode = some m → truncOf tin = some tn →
    ∃ (t : State) (q d lo r : Nat),
      let sig := f.a.low w
      let k1 := ndig sig - 34
      let e1 : Int := f.expi.toInt + k1
      let k2 := (0 - e1).toNat
      let k := k1 + k2
      let tr : Trunc := if lo ≠ 0 then .hi else tn
      let h := headroomLoop (e1 + k2 - 12287).toNat q (e1 + k2)
      let q4 : Int := h.1 + roundInc m sgn d tr h.1
      exec (.reduce w rm sgn tin) s = .next t ∧
      sig = q * 10 ^ k + r ∧ r < 10 ^ k ∧
      (if k = 0 then d = 0 ∧ lo = 0 else r = d * 10 ^ (k - 1) + lo ∧ lo < 10 ^ (k - 1)) ∧
      (if 0 < k2 ∧ q = 0 then ReduceCompletion s t 0 6176 tr d
        else if q4 = 10 ^ 34 then ReduceCompletion s t (10 ^ 33) (h.2 + 1) tr d
        else 0 ≤ q4 ∧ ReduceCompletion s t q4.toNat h.2 tr d)

/-- R84, R86, R94: REDUCE with RM = 7 or TIN = 0b11 fails with ILLEGAL. -/
def Obligations.IllegalReduceFails : Prop :=
  ∀ (w : Width) (rm : BitVec 3) (sgn : Bool) (tin : BitVec 2) (s : State) (f : InFlight), s.inFlight = some f →
    rm = 7#3 ∨ tin = 3#2 → ∃ t, exec (.reduce w rm sgn tin) s = .next t ∧ Failure s t .illegal

/-- R210: RM = 6 does what the RM code of the mode in CFG[2:0] does. -/
def Obligations.DefaultModeIsTheModeOfCfg : Prop :=
  ∀ (w : Width) (sgn : Bool) (tin : BitVec 2) (s : State),
    exec (.reduce w 6#3 sgn tin) s = exec (.reduce w (s.cfg.toWord.extractLsb' 0 3) sgn tin) s

/-- R208: what a REDUCE that succeeds leaves: a significand of 34 digits, an exponent in [0, 32812], at most 12287 unless
OVF is set, and a digit in RD. -/
def Obligations.ReduceOutputInvariants : Prop :=
  ∀ (w : Width) (rm : BitVec 3) (sgn : Bool) (tin : BitVec 2) (s t : State),
    exec (.reduce w rm sgn tin) s = .next t → t.stat.err = none →
    t.r.toNat ≤ 10 ^ 34 - 1 ∧ t.expo.toNat ≤ 32812 ∧ (t.stat.ovf = false ↔ t.expo.toNat ≤ 12287) ∧
      t.stat.rd.toNat ≤ 9 ∧ truncCode t.stat.trunc ≠ 0b11#2

/-- R207: a significand of at most 34 digits at an exponent in range, nothing truncated before: the value passes unchanged. -/
def Obligations.ReduceOfAnExactValueIsExact : Prop :=
  ∀ (w : Width) (rm : BitVec 3) (sgn : Bool) (m : Rounding) (s : State) (f : InFlight), s.inFlight = some f →
    roundingOf rm s.cfg.defMode = some m → f.a.low w ≤ 10 ^ 34 - 1 → 0 ≤ f.expi.toInt → f.expi.toInt ≤ 12287 →
    ∃ t, exec (.reduce w rm sgn 0#2) s = .next t ∧ ReduceCompletion s t (f.a.low w) f.expi.toInt .ex 0

/-- R207: REDUCE of 0: at an exponent in range (0, E); below 0 the clamp (0, 6176); above 12287 (0, 12287). Under ToZero too,
since there is nothing to decrement. -/
def Obligations.ReduceOfZero : Prop :=
  ∀ (w : Width) (rm : BitVec 3) (sgn : Bool) (m : Rounding) (s : State) (f : InFlight), s.inFlight = some f →
    roundingOf rm s.cfg.defMode = some m → f.a.low w = 0 →
    ∃ t, exec (.reduce w rm sgn 0#2) s = .next t ∧
      ReduceCompletion s t 0
        (if f.expi.toInt < 0 then 6176 else if f.expi.toInt ≤ 12287 then f.expi.toInt else 12287) .ex 0

/-- R197: the closed form of step 3 is its loop. -/
def Obligations.HeadroomClosedFormIsTheLoop : Prop :=
  ∀ (q : Nat) (e : Int) (n : Nat), q < 10 ^ 34 → (e - 12287).toNat ≤ n → headroom q e = headroomLoop n q e

/-- R209: stripping the k digits one at a time gives the kept significand, the round digit and whether a digit below it was
not 0, as R194 and R195 give them for all k at once. -/
def Obligations.StrippingOneDigitAtATimeAgrees : Prop :=
  ∀ (sig k : Nat),
    stripDigits k sig = (sig / 10 ^ k, roundDigit sig k, decide (belowRoundDigit sig k ≠ 0))

/-- With TIN = EX, no clamp and no turn of step 3 (the exponent is in range, or the kept significand already has 34 digits), the
value REDUCE leaves is the one its mode asks for: within half a unit of the last kept place for the two nearest modes (the tie to
an even significand under NE), within one unit toward or away from zero for the others, by the sign for the directed ones. Derived
from R198 to R204; the cases of I5 (TIN = LO, the clamp) are left out. -/
def Obligations.ReduceRoundsCorrectlyFromAnExactValue : Prop :=
  ∀ (w : Width) (rm : BitVec 3) (sgn : Bool) (m : Rounding) (s t : State) (f : InFlight), s.inFlight = some f →
    roundingOf rm s.cfg.defMode = some m → exec (.reduce w rm sgn 0#2) s = .next t →
    let sig := f.a.low w
    let k1 := ndig sig - 34
    let e1 : Int := f.expi.toInt + k1
    let k2 := (0 - e1).toNat
    let k := k1 + k2
    (k2 = 0 ∨ 10 ^ k ≤ sig) → (e1 + k2 ≤ 12287 ∨ 10 ^ 33 ≤ sig / 10 ^ k) →
    ∃ v : Nat, (v : Int) = t.r.toNat * 10 ^ (t.expo.toInt - f.expi.toInt).toNat ∧ (0 ≤ t.expo.toInt - f.expi.toInt) ∧
      (m = .ne → 2 * v ≤ 2 * sig + 10 ^ k ∧ 2 * sig ≤ 2 * v + 10 ^ k ∧
        (2 * v = 2 * sig + 10 ^ k ∨ 2 * sig = 2 * v + 10 ^ k → 0 < k → v / 10 ^ k % 2 = 0)) ∧
      (m = .na → 2 * v ≤ 2 * sig + 10 ^ k ∧ 2 * sig < 2 * v + 10 ^ k) ∧
      (m = .tz ∨ (m = .tn ∧ sgn = false) ∨ (m = .tp ∧ sgn = true) → v ≤ sig ∧ sig < v + 10 ^ k) ∧
      (m = .az ∨ (m = .tn ∧ sgn = true) ∨ (m = .tp ∧ sgn = false) → sig ≤ v ∧ v < sig + 10 ^ k)

/-! ## All commands -/

/-- R23, R24, R27, R29, R31, R38, R40: no command writes A, B, EXPI, CMD or CFG, and each leaves the unit idle. -/
def Obligations.CommandsLeaveOperandsAndEndBusy : Prop :=
  ∀ (i : Instr) (s t : State), exec i s = .next t →
    s.SameInputs t ∧ t.stat.busy = false ∧ t.inFlight = none ∧ (s.ghost.commandFailed = true → t.ghost.commandFailed = true)

/-- R28: no command but REDUCE writes EXPO. -/
def Obligations.OnlyReduceWritesExpo : Prop :=
  ∀ (i : Instr) (s t : State), exec i s = .next t → i.fields.op ≠ .reduce → t.expo = s.expo ∧ t.written.expo = s.written.expo

/-- R231: a step that completes a command with an error, an illegal word among them, leaves R, X and EXPO as they were and
every field of STAT but ERR 0. -/
def Obligations.FailedCommandsWriteOnlyStat : Prop :=
  ∀ (s t : State) (f : InFlight) (e : CommandError), s.inFlight = some f → f.cyclesLeft ≤ 1 → s.resetNow = false →
    step s = .next t → t.stat.err = some e → Failure s t e

/-- R33: after a step that completes a command, Z is 1 exactly when it succeeded and R is all zero; X is not looked at. -/
def Obligations.ZeroFlagReadsTheResultOnly : Prop :=
  ∀ (s t : State) (f : InFlight), s.inFlight = some f → f.cyclesLeft ≤ 1 → s.resetNow = false → step s = .next t →
    (t.stat.z = true ↔ t.stat.err = none ∧ t.r.l0 = 0#64 ∧ t.r.l1 = 0#64 ∧ t.r.l2 = 0#64 ∧ t.r.l3 = 0#64)

/-- R232: a legal command fails only as DIV with B_W = 0 (DIVZERO) or LOG10 with A_128 = 0 (DOMAIN). -/
def Obligations.OnlyDivAndLogarithmCanFail : Prop :=
  ∀ (i : Instr) (s t : State) (f : InFlight) (e : CommandError), i.wellFormed = true → s.inFlight = some f →
    exec i s = .next t → t.stat.err = some e →
    ((∃ w, i = .div w ∧ f.b.low w = 0) ∧ e = .divZero) ∨ ((i = .log10_128 ∧ f.a.low .w128 = 0) ∧ e = .domain)

/-- R39, R115: what a command does depends on its snapshot and, for REDUCE, on CFG, not on the registers A, B, EXPI, R, X,
STAT or on anything the host did since: two states that agree on those two give the same STAT, and the same R, X if it
succeeds. -/
def Obligations.CommandsComputeFromTheSnapshot : Prop :=
  ∀ (i : Instr) (s u t v : State), s.inFlight = u.inFlight → s.cfg = u.cfg → exec i s = .next t → exec i u = .next v →
    t.stat = v.stat ∧ (t.stat.err = none → t.r = v.r ∧ t.x = v.x ∧ (i.fields.op = .reduce → t.expo = v.expo))

/-- R23, R24, R82: the limbs of A and B at and above W/64 are ignored. -/
def Obligations.LimbsAboveTheWidthAreIgnored : Prop :=
  ∀ (i : Instr) (s u t v : State) (f g : InFlight), s.inFlight = some f → u.inFlight = some g → s.cfg = u.cfg →
    f.expi = g.expi →
    f.a.toNat % 2 ^ bits i.fields.w = g.a.toNat % 2 ^ bits i.fields.w →
    f.b.toNat % 2 ^ bits i.fields.w = g.b.toNat % 2 ^ bits i.fields.w →
    exec i s = .next t → exec i u = .next v →
    t.stat = v.stat ∧ (t.stat.err = none → t.r = v.r ∧ t.x = v.x ∧ (i.fields.op = .reduce → t.expo = v.expo))

/-- R261, R263: the CMD write of a legal command, which is where it reads its operands (R39, R67), is recorded exactly if it reads
one that nothing has set: A_W for every command, B_W for ADD, SUB, MUL and DIV, B0 for MUL64, LSH and RSH, EXPI for REDUCE. The
CMD write of an illegal word reads none (R110, R237). That the read is recorded and the machine goes on is the MODEL'S CHOICE (log
entries 1 and 5). -/
def Obligations.UnsetOperandsAreRecorded : Prop :=
  (∀ (i : Instr) (s : State), i.wellFormed = true → s.stat.busy = false →
    let op := i.fields.op
    let readsA : Fin 4 → Prop := fun j => j.val < bits i.fields.w / 64
    let readsB : Fin 4 → Prop := fun j =>
      ((op = .add ∨ op = .sub ∨ op = .mul ∨ op = .div) ∧ j.val < bits i.fields.w / 64) ∨
        ((op = .mul64 ∨ op = .lsh ∨ op = .rsh) ∧ j = 0)
    ((s.perform (.write 0x90#8 8 (encode i))).ghost.unsetRead = true ↔
      s.ghost.unsetRead = true ∨ (∃ j, readsA j ∧ s.written.a.get j = false) ∨
        (∃ j, readsB j ∧ s.written.b.get j = false) ∨ (op = .reduce ∧ s.written.expi = false))) ∧
  ∀ (v : Word) (e : IllegalWord) (s : State), s.stat.busy = false → decode v = .error e →
    (s.perform (.write 0x90#8 8 v)).ghost = s.ghost

/-! ## The window -/

/-- R62: the register at each offset of the window, and none elsewhere. -/
def Obligations.RegisterMapOfTheWindow : Prop :=
  (∀ (off : BitVec 8) (g : Reg), regAt off = some g ↔ offsetOf g = off) ∧
  (∀ i : Fin 4, (offsetOf (.a i)).toNat = 0x00 + 8 * i.val ∧ (offsetOf (.b i)).toNat = 0x20 + 8 * i.val ∧
    (offsetOf (.r i)).toNat = 0x40 + 8 * i.val ∧ (offsetOf (.x i)).toNat = 0x60 + 8 * i.val) ∧
  offsetOf .expi = 0x80#8 ∧ offsetOf .expo = 0x88#8 ∧ offsetOf .cmd = 0x90#8 ∧ offsetOf .stat = 0x98#8 ∧
  offsetOf .cfg = 0xA0#8

/-- R60: the platform addresses of the window are BASE to BASE + 255, and an address in it reaches its own offset. -/
def Obligations.WindowIs256BytesAtBase : Prop :=
  ∀ addr : Nat,
    (∀ off : BitVec 8, windowOffset addr = some off ↔ addr = Config.base + off.toNat) ∧
    (windowOffset addr = none ↔ addr < Config.base ∨ Config.base + 256 ≤ addr)

/-- R64, R236: an access of another size or at a misaligned or reserved offset, a write to a read-only register, and a write
to CMD while busy, are answered by a bus error: no register changes, nothing starts. That the machine goes on with the error
response, where I8 and I13 ask for a fault, and that the access goes into the sticky record, is the MODEL'S CHOICE (log entries
5 and 6). -/
def Obligations.BusErrorsChangeNothing : Prop :=
  ∀ (s : State) (off : BitVec 8) (size : Nat) (v : Word),
    let refusedAccess := size ≠ 8 ∨ off.toNat % 8 ≠ 0 ∨ 0xA8 ≤ off.toNat
    let refusedWrite := refusedAccess ∨ (0x40 ≤ off.toNat ∧ off.toNat < 0x80) ∨ off.toNat = 0x88 ∨ off.toNat = 0x98 ∨
      off.toNat = 0xA0 ∨ (off.toNat = 0x90 ∧ s.stat.busy = true)
    let answered : State :=
      { s with responses := s.responses ++ [.busError], ghost := { s.ghost with busError := true } }
    (refusedAccess → s.perform (.read off size) = answered) ∧ (refusedWrite → s.perform (.write off size v) = answered)

/-- R65, R68: while idle, a read answers the register's value and changes no register. That a read of a register nothing has set
answers its value too and is recorded, where R261 calls it a fault and not a read of some value, is the MODEL'S CHOICE (log
entries 1 and 5). -/
def Obligations.IdleReadAnswersTheRegister : Prop :=
  ∀ (s : State) (g : Reg), s.stat.busy = false →
    ∃ unset, s.perform (.read (offsetOf g) 8) =
      { s with responses := s.responses ++ [.data (s.readReg g)], ghost := { s.ghost with unsetRead := unset } } ∧
      (unset = true ↔ s.ghost.unsetRead = true ∨ s.isSet g = false)

/-- R265, R30: while busy, a read of A, B, EXPI, CMD or CFG still answers its value; a read of R, X or EXPO answers a free
value; a read of STAT has BUSY = 1 and its reserved bits 0 (log entry 3). No register changes. That a read of a register nothing
has set is recorded and goes on is the MODEL'S CHOICE (R261, log entries 1 and 5). -/
def Obligations.BusyReads : Prop :=
  ∀ (s : State) (g : Reg), s.stat.busy = true →
    ∃ v draws, s.perform (.read (offsetOf g) 8) =
      { s with
        responses := s.responses ++ [.data v], draws := draws
        ghost := { s.ghost with unsetRead := s.ghost.unsetRead || !s.isSet g } } ∧
      (match g with
        | .r _ => v = Config.busyRead s.draws ∧ draws = s.draws + 1
        | .x _ => v = Config.busyRead s.draws ∧ draws = s.draws + 1
        | .expo => v = Config.busyRead s.draws ∧ draws = s.draws + 1
        | .stat => v.getLsbD 0 = true ∧ v.extractLsb' 6 2 = 0#2 ∧ v.extractLsb' 16 48 = 0#48 ∧ draws = s.draws + 1
        | _ => v = s.readReg g ∧ draws = s.draws)

/-- R65, R66, R266: a write to a limb of A or B or to EXPI is stored, busy or not; the register reads back what was written and is
marked as set (R261, log entry 1), every other register reads as before and keeps its mark, and nothing else changes but the
answer: the command in flight keeps its snapshot, and the record, the draws and the inputs to come are as before. -/
def Obligations.OperandWritesAreStored : Prop :=
  ∀ (s : State) (g h : Reg) (v : Word), ((∃ i, g = .a i) ∨ (∃ i, g = .b i) ∨ g = .expi) →
    let t := s.perform (.write (offsetOf g) 8 v)
    t.readReg g = v ∧ t.isSet g = true ∧ (h ≠ g → t.readReg h = s.readReg h ∧ t.isSet h = s.isSet h) ∧
      t = { s with
        a := t.a, b := t.b, expi := t.expi, written := t.written, responses := s.responses ++ [.done] }

/-- R29, R31, R39, R263: a write to CMD while idle stores the word, sets BUSY and snapshots A, B and EXPI[15:0], with which of the
registers had been set; the command will be busy for 1 to LAT_MAX cycles; no other register changes. Its read of an operand nothing
had set goes into the sticky record (R261), which is the MODEL'S CHOICE (log entries 1 and 5). -/
def Obligations.CommandWriteStartsACommand : Prop :=
  ∀ (s : State) (v : Word), s.stat.busy = false →
    ∃ f unset, s.perform (.write 0x90#8 8 v) =
        { s with
          cmd := v, stat := { s.stat with busy := true }, inFlight := some f, draws := s.draws + 1
          responses := s.responses ++ [.done], ghost := { s.ghost with unsetRead := unset } } ∧
      (unset = true ↔ s.ghost.unsetRead = true ∨ (wordReads v).allSet s.written = false) ∧
      f.a = s.a ∧ f.b = s.b ∧ f.expi = s.expi.extractLsb' 0 16 ∧ f.written = s.written ∧ 1 ≤ f.cyclesLeft ∧
      f.cyclesLeft ≤ Config.latMax

/-- R30: where STAT's word has its fields; bits [7:6] and [63:16] read 0. The codes of TRUNC are those of R88, in TIN as in STAT
(R86), and the codes of ERR those of R232. -/
def Obligations.StatusWordLayout : Prop :=
  (truncCode .ex = 0#2 ∧ truncCode .hi = 1#2 ∧ truncCode .lo = 2#2) ∧
  (truncOf 0#2 = some .ex ∧ truncOf 1#2 = some .hi ∧ truncOf 2#2 = some .lo ∧ truncOf 3#2 = none) ∧
  (errCode none = 0#4 ∧ errCode (some .illegal) = 1#4 ∧ errCode (some .divZero) = 2#4 ∧ errCode (some .domain) = 3#4) ∧
  ∀ t : Status,
    t.toWord.getLsbD 0 = t.busy ∧ t.toWord.getLsbD 1 = t.c ∧ t.toWord.getLsbD 2 = t.z ∧ t.toWord.getLsbD 3 = t.ovf ∧
      t.toWord.extractLsb' 4 2 = truncCode t.trunc ∧ t.toWord.extractLsb' 6 2 = 0#2 ∧
      t.toWord.extractLsb' 8 4 = errCode t.err ∧ t.toWord.extractLsb' 12 4 = t.rd ∧ t.toWord.extractLsb' 16 48 = 0#48

/-- R38, R87: CFG[2:0] is the code of the default mode, one of 0..5, and CFG[63:3] reads 0; no step changes CFG. The codes of the six
modes, in CFG and in RM alike, are those of R87; RM = 6 is the default mode and RM = 7 none (R84). -/
def Obligations.CfgNeverChanges : Prop :=
  (roundingCode .ne = 0#3 ∧ roundingCode .na = 1#3 ∧ roundingCode .tz = 2#3 ∧ roundingCode .az = 3#3 ∧
    roundingCode .tn = 4#3 ∧ roundingCode .tp = 5#3) ∧
  (∀ g : Rounding, roundingOf 0#3 g = some .ne ∧ roundingOf 1#3 g = some .na ∧ roundingOf 2#3 g = some .tz ∧
    roundingOf 3#3 g = some .az ∧ roundingOf 4#3 g = some .tn ∧ roundingOf 5#3 g = some .tp ∧ roundingOf 6#3 g = some g ∧
    roundingOf 7#3 g = none) ∧
  ∀ s t : State, s.cfg.toWord = 0#61 ++ roundingCode s.cfg.defMode ∧ s.cfg.toWord.toNat ≤ 5 ∧
    roundingOf (s.cfg.toWord.extractLsb' 0 3) s.cfg.defMode = some s.cfg.defMode ∧ (step s = .next t → t.cfg = s.cfg)

/-- R98: on an idle unit, the host's `CMD c` for a legal c starts a command that decodes to c. -/
def Obligations.HostCommandStatementStartsThatCommand : Prop :=
  ∀ (s : State) (c : Instr), s.stat.busy = false → c.wellFormed = true →
    (HostStmt.cmd c).expand = [.write .cmd (.const (encode c).toNat) 0] ∧
    ∃ f, (s.perform (.write (offsetOf .cmd) 8 (BitVec.ofNat 64 (encode c).toNat))).inFlight = some f ∧
      decode (s.perform (.write (offsetOf .cmd) 8 (BitVec.ofNat 64 (encode c).toNat))).cmd = .ok c

/-! ## Reset and whole-machine rules -/

/-- R260, R262: what reset leaves: CMD = 0, STAT = 0, CFG = DEFMODE, no command in flight, no register set. -/
def Obligations.ResetValues : Prop :=
  State.reset.cmd = 0#64 ∧ State.reset.stat.toWord = 0#64 ∧ State.reset.cfg.defMode = Config.defMode ∧
    State.reset.inFlight = none ∧ State.reset.written = Written.none

/-- R260: a reset during a busy command abandons it: no result of it is written, the registers take their reset values, and no
later cycle completes it. The values of A, B, R, X, EXPI and EXPO are the model's choice (log entry 1). -/
def Obligations.ResetAbandonsTheCommand : Prop :=
  ∀ s : State, s.resetNow = true →
    ∃ t, step s = .next t ∧ t.inFlight = none ∧ t.stat.toWord = 0#64 ∧ t.cmd = 0#64 ∧ t.cfg = s.cfg ∧
      t.written = Written.none ∧ t.r = State.reset.r ∧ t.x = State.reset.x ∧ t.expo = State.reset.expo ∧
      t.a = State.reset.a ∧ t.b = State.reset.b ∧ t.expi = State.reset.expi ∧ s.inbox = .reset :: t.inbox

/-- The invariant holds right after reset: R260 gives STAT and the command in flight; its clauses on EXPO and on Z speak only of
registers that have been set (R261), and after reset none has, so the values of log entry 1 have no part in it. -/
def Obligations.ResetMeetsTheInvariant : Prop := State.reset.Inv

/-- Every step keeps the invariant (R30, R31, R33, R39, R208, R231, R261, R263), a step that takes a reset included: the clauses on
EXPO and on Z speak only of registers that have been set (R261), so the values of log entry 1 have no part in it. Its clause on the
record of unset reads is the MODEL'S OWN (log entries 1, 5 and 12). -/
def Obligations.EveryStepKeepsTheInvariant : Prop :=
  ∀ s t : State, s.Inv → step s = .next t → t.Inv

/-- R31, R263, R268: from every state of the invariant with a command in flight, if no reset comes, the command has completed
after as many steps as it has cycles left, and so after at most LAT_MAX; the states before are busy. That one step is one cycle,
on which the exact count rests, is the MODEL'S CHOICE (log entry 2). -/
def Obligations.EveryCommandCompletesWithinItsLatency : Prop :=
  ∀ (s : State) (f : InFlight), s.Inv → s.inFlight = some f → (∀ e ∈ s.inbox, e ≠ Input.reset) →
    f.cyclesLeft ≤ Config.latMax ∧
    (∃ t : State, s.after f.cyclesLeft = .next t ∧ t.stat.busy = false ∧ t.inFlight = none) ∧
    ∀ n, n < f.cyclesLeft → ∃ t : State, s.after n = .next t ∧ t.stat.busy = true

/-- R239, R240: nothing clears the record of a failed command, of an unset read or of a bus error. -/
def Obligations.TheRecordIsSticky : Prop :=
  ∀ s t : State, step s = .next t →
    (s.ghost.commandFailed = true → t.ghost.commandFailed = true) ∧
    (s.ghost.unsetRead = true → t.ghost.unsetRead = true) ∧ (s.ghost.busError = true → t.ghost.busError = true)

/-- R25, R26, R28, R40: R, X, EXPO change only in a step that completes a command, and then all at once with STAT, or in a
reset. -/
def Obligations.ResultsChangeOnlyAtCompletion : Prop :=
  ∀ s t : State, step s = .next t → s.due = false → s.resetNow = false → t.r = s.r ∧ t.x = s.x ∧ t.expo = s.expo ∧
    { t.stat with busy := s.stat.busy } = s.stat

/-- R261: an unset operand that a command read at its CMD write (R39, R67) is recorded after the next step whatever becomes of the
command in it: whether it stays busy, completes, or is abandoned by a reset. The record is the MODEL'S OWN (log entries 1, 5
and 12). -/
def Obligations.UnsetOperandsStayRecordedThroughAReset : Prop :=
  ∀ (s t : State) (f : InFlight), s.Inv → s.inFlight = some f → (wordReads s.cmd).allSet f.written = false →
    step s = .next t → t.ghost.unsetRead = true
end

