-- ==== Sys2Proof/Laws/Limbs.lean ====
section
/-!
SUPPORT. Limb groups as integers: recomposition, bounds, `A_W` as a residue, and the zero test (R7, R8, R33).
-/

namespace Sys2Proof.Machine

theorem bits_cases (w : Width) : bits w = 128 ∨ bits w = 192 ∨ bits w = 256 := by cases w <;> simp [bits]

theorem bits_le (w : Width) : bits w ≤ 256 := by cases w <;> simp [bits]

theorem two_pow_bits_le (w : Width) : 2 ^ bits w ≤ 2 ^ 256 := Nat.pow_le_pow_right (by decide) (bits_le w)

theorem Limbs.toNat_lt (g : Limbs) : g.toNat < 2 ^ 256 := by
  have h0 := g.l0.isLt; have h1 := g.l1.isLt; have h2 := g.l2.isLt; have h3 := g.l3.isLt
  simp only [Limbs.toNat]; omega

/-- `A_W` is the group's value modulo 2^W (R7). -/
theorem Limbs.low_eq_mod (w : Width) (g : Limbs) : g.low w = g.toNat % 2 ^ bits w := by
  have h0 := g.l0.isLt; have h1 := g.l1.isLt; have h2 := g.l2.isLt; have h3 := g.l3.isLt
  cases w <;> simp only [Limbs.low, Limbs.toNat, bits] <;> omega

theorem Limbs.low_lt (w : Width) (g : Limbs) : g.low w < 2 ^ bits w := by
  rw [Limbs.low_eq_mod]; exact Nat.mod_lt _ (by positivity)

theorem Limbs.low_lt_256 (w : Width) (g : Limbs) : g.low w < 2 ^ 256 :=
  lt_of_lt_of_le (g.low_lt w) (two_pow_bits_le w)

theorem Limbs.first_lt (g : Limbs) : g.first < 2 ^ 64 := g.l0.isLt

@[simp] theorem Limbs.toNat_ofNat (v : Nat) : (Limbs.ofNat v).toNat = v % 2 ^ 256 := by
  simp only [Limbs.ofNat, Limbs.toNat, BitVec.toNat_ofNat]; omega

theorem Limbs.ext_toNat {g h : Limbs} (e : g.toNat = h.toNat) : g = h := by
  obtain ⟨g0, g1, g2, g3⟩ := g
  obtain ⟨h0, h1, h2, h3⟩ := h
  have := g0.isLt; have := g1.isLt; have := g2.isLt; have := g3.isLt
  have := h0.isLt; have := h1.isLt; have := h2.isLt; have := h3.isLt
  simp only [Limbs.toNat] at e
  have e0 : g0.toNat = h0.toNat := by omega
  have e1 : g1.toNat = h1.toNat := by omega
  have e2 : g2.toNat = h2.toNat := by omega
  have e3 : g3.toNat = h3.toNat := by omega
  rw [BitVec.eq_of_toNat_eq e0, BitVec.eq_of_toNat_eq e1, BitVec.eq_of_toNat_eq e2, BitVec.eq_of_toNat_eq e3]

@[simp] theorem Limbs.ofNat_toNat (g : Limbs) : Limbs.ofNat g.toNat = g :=
  Limbs.ext_toNat (by rw [Limbs.toNat_ofNat, Nat.mod_eq_of_lt g.toNat_lt])

theorem Limbs.ofNat_mod (v : Nat) : Limbs.ofNat (v % 2 ^ 256) = Limbs.ofNat v :=
  Limbs.ext_toNat (by simp)

theorem Limbs.isZero_iff (g : Limbs) : g.isZero = true ↔ g.toNat = 0 := by
  obtain ⟨g0, g1, g2, g3⟩ := g
  simp only [Limbs.isZero, Limbs.toNat, Bool.and_eq_true, beq_iff_eq, BitVec.toNat_eq, BitVec.toNat_ofNat]
  omega

theorem Limbs.isZero_ofNat (v : Nat) : (Limbs.ofNat v).isZero = true ↔ v % 2 ^ 256 = 0 := by
  rw [Limbs.isZero_iff, Limbs.toNat_ofNat]

theorem Limbs.isZero_ofNat_eq (v : Nat) : (Limbs.ofNat v).isZero = decide (v % 2 ^ 256 = 0) := by
  rw [Bool.eq_iff_iff, Limbs.isZero_ofNat, decide_eq_true_iff]

/-- Writing one limb leaves it readable and the others alone (R22). -/
theorem Limbs.get_set (g : Limbs) (i j : Fin 4) (v : Word) :
    (g.set i v).get j = if j = i then v else g.get j := by
  fin_cases i <;> fin_cases j <;> rfl

/-- The lowest n limbs are not all marked exactly if one of them is not. -/
theorem LimbFlags.lowest_eq_false_iff (n : Nat) (g : LimbFlags) :
    g.lowest n = false ↔ ∃ j : Fin 4, j.val < n ∧ g.get j = false := by
  constructor
  · intro h
    by_contra hc
    have key : ∀ j : Fin 4, j.val < n → g.get j = true := fun j hj => by
      by_contra hj'
      exact hc ⟨j, hj, Bool.eq_false_iff.2 hj'⟩
    have h0 := key 0; have h1 := key 1; have h2 := key 2; have h3 := key 3
    simp only [LimbFlags.get] at h0 h1 h2 h3
    rcases Nat.lt_or_ge 3 n with hn | hn
    · simp [LimbFlags.lowest, h0 (by omega), h1 (by omega), h2 (by omega), h3 (by omega)] at h
    · interval_cases n <;> simp_all [LimbFlags.lowest]
  · rintro ⟨j, hj, h⟩
    simp only [LimbFlags.lowest]
    fin_cases j <;> simp [LimbFlags.get] at hj h <;> simp [h] <;> omega

/-- A command reads an operand that nothing had set: a limb of A, a limb of B, or EXPI (R261, R263). -/
theorem Reads.allSet_eq_false_iff (d : Reads) (m : Written) :
    d.allSet m = false ↔ (∃ j : Fin 4, j.val < d.aLimbs ∧ m.a.get j = false) ∨
      (∃ j : Fin 4, j.val < d.bLimbs ∧ m.b.get j = false) ∨ (d.expi = true ∧ m.expi = false) := by
  rw [← LimbFlags.lowest_eq_false_iff, ← LimbFlags.lowest_eq_false_iff, Reads.allSet]
  cases m.a.lowest d.aLimbs <;> cases m.b.lowest d.bLimbs <;> cases d.expi <;> cases m.expi <;> simp

theorem Limbs.zero_toNat : Limbs.zero.toNat = 0 := by decide

end Sys2Proof.Machine
end

