-- ==== Sys2Proof/Laws/Numbers.lean ====
section
/-!
SUPPORT. Bit lengths and digit counts (R8), and the numbers of a reduction (R192 to R205).
-/

namespace Sys2Proof.Machine

theorem lt_two_pow_bitlen (n : Nat) : n < 2 ^ bitlen n := by
  unfold bitlen
  split
  · simp [*]
  · exact Nat.lt_log2_self

theorem two_pow_le_of_bitlen {n : Nat} (h : n ≠ 0) : 2 ^ (bitlen n - 1) ≤ n := by
  simpa [bitlen, h] using Nat.log2_self_le h

/-- The bit length is the least exponent of two above the number. -/
theorem bitlen_le_iff (n m : Nat) : bitlen n ≤ m ↔ n < 2 ^ m := by
  constructor
  · exact fun h => lt_of_lt_of_le (lt_two_pow_bitlen n) (Nat.pow_le_pow_right (by decide) h)
  · intro h
    by_cases h0 : n = 0
    · simp [bitlen, h0]
    · have := (Nat.log2_lt h0).2 h
      simp only [bitlen, h0, if_false]; omega

theorem digitCount_le_iff (fuel : Nat) : ∀ n m, n < 10 ^ fuel → (digitCount fuel n ≤ m ↔ n < 10 ^ m) := by
  induction fuel with
  | zero =>
    intro n m h
    have : n = 0 := by simpa using h
    simp [digitCount, this]
  | succ fuel ih =>
    intro n m h
    by_cases h0 : n = 0
    · simp [digitCount, h0]
    · simp only [digitCount, h0, if_false]
      cases m with
      | zero => simp; omega
      | succ m =>
        have hlt : n / 10 < 10 ^ fuel := by rw [Nat.pow_succ] at h; omega
        rw [Nat.add_le_add_iff_right, ih _ _ hlt, Nat.pow_succ]
        omega

/-- `ndig n` is the least exponent of ten above n (R8). -/
theorem ndig_le_iff (n m : Nat) : ndig n ≤ m ↔ n < 10 ^ m := by
  refine digitCount_le_iff _ n m (lt_of_lt_of_le (lt_two_pow_bitlen n) ?_)
  exact Nat.pow_le_pow_left (by decide) _

theorem lt_ten_pow_ndig (n : Nat) : n < 10 ^ ndig n := (ndig_le_iff n _).1 le_rfl

theorem ten_pow_le_of_lt_ndig {n m : Nat} (h : m < ndig n) : 10 ^ m ≤ n := by
  by_contra hc
  have := (ndig_le_iff n m).2 (by omega)
  omega

theorem ndig_pos {n : Nat} (h : n ≠ 0) : 0 < ndig n := by
  by_contra hc
  have := (ndig_le_iff n 0).1 (by omega)
  omega

@[simp] theorem ndig_zero : ndig 0 = 0 := rfl

/-- A 256-bit number has at most 78 digits (R192). -/
theorem ndig_le_78 {n : Nat} (h : n < 2 ^ 256) : ndig n ≤ 78 :=
  (ndig_le_iff n 78).2 (lt_trans h (by decide))

/-- Multiplying by a power of ten adds that many digits. -/
theorem ndig_mul_ten_pow {n : Nat} (h : n ≠ 0) (j : Nat) : ndig (n * 10 ^ j) = ndig n + j := by
  apply Nat.le_antisymm
  · rw [ndig_le_iff, Nat.pow_add]
    exact Nat.mul_lt_mul_of_pos_right (lt_ten_pow_ndig n) (by positivity)
  · by_contra hc
    have hp := ndig_pos h
    have hlt : n * 10 ^ j < 10 ^ (ndig n - 1 + j) := (ndig_le_iff _ _).1 (by omega)
    rw [Nat.pow_add] at hlt
    have := Nat.lt_of_mul_lt_mul_right hlt
    have := ten_pow_le_of_lt_ndig (n := n) (m := ndig n - 1) (by omega)
    omega

/-- What remains after the precision step has at most P digits (R192). -/
theorem kept_lt (sig k2 : Nat) : sig / 10 ^ (precisionDigits sig + k2) < 10 ^ precision := by
  rw [Nat.div_lt_iff_lt_mul (by positivity), ← Nat.pow_add, ← ndig_le_iff]
  simp only [precisionDigits]; omega

theorem roundDigit_le (sig k : Nat) : roundDigit sig k ≤ 9 := by
  unfold roundDigit
  split
  · omega
  · have hk : 10 ^ k = 10 * 10 ^ (k - 1) := by rw [← Nat.pow_succ']; congr 1; omega
    have hm : sig % 10 ^ k < 10 ^ k := Nat.mod_lt _ (by positivity)
    have : sig % 10 ^ k / 10 ^ (k - 1) < 10 := by
      rw [Nat.div_lt_iff_lt_mul (by positivity), ← hk]; exact hm
    omega

/-- Step 3 does nothing to an exponent in range (R197). -/
theorem headroom_low {e : Int} (h : e ≤ 12287) (q : Nat) : headroom q e = (q, e) := if_pos h

/-- Step 3 does nothing to a significand of P digits (R197). -/
theorem headroom_full {q : Nat} (h : 10 ^ 33 ≤ q) (hq : q < 10 ^ 34) (e : Int) : headroom q e = (q, e) := by
  by_cases he : e ≤ 12287
  · exact if_pos he
  · have h34 : ndig q = 34 := by
      have h1 := (ndig_le_iff q 34).2 hq
      have h2 : ¬ ndig q ≤ 33 := fun hc => absurd ((ndig_le_iff q 33).1 hc) (by omega)
      omega
    have h0 : q ≠ 0 := by omega
    have hj : min (e - eMax).toNat (precision - ndig q) = 0 := by rw [h34]; simp [precision]
    have : headroom q e = (q * 10 ^ min (e - eMax).toNat (precision - ndig q),
        e - (min (e - eMax).toNat (precision - ndig q) : Nat)) := (if_neg he).trans (if_neg h0)
    rw [this, hj]; simp

/-- Step 3 takes the exponent of 0 down to EMAX (R197). -/
theorem headroom_zero {e : Int} (h : ¬ e ≤ 12287) : headroom 0 e = (0, 12287) := (if_neg h).trans (if_pos rfl)

/-- Step 3 on a significand that is not 0 (R197): `j = min(E2 − EMAX, P − ndig(q))`. -/
theorem headroom_pos {e : Int} (h : ¬ e ≤ 12287) {q : Nat} (hq : q ≠ 0) :
    headroom q e =
      (q * 10 ^ min (e - 12287).toNat (34 - ndig q), e - (min (e - 12287).toNat (34 - ndig q) : Nat)) :=
  (if_neg h).trans (if_neg hq)

/-- Headroom keeps q within P digits, leaves an exponent that was in range, and never takes it below EMAX otherwise
(R197). -/
theorem headroom_spec {q : Nat} {e : Int} (hq : q < 10 ^ precision) (he : 0 ≤ e) :
    (headroom q e).1 < 10 ^ precision ∧ 0 ≤ (headroom q e).2 ∧ (headroom q e).2 ≤ e := by
  unfold headroom
  split
  · exact ⟨hq, he, le_rfl⟩
  · rename_i h
    simp only [eMax, not_le] at h ⊢
    split
    · exact ⟨by positivity, by omega, by omega⟩
    · rename_i h0
      refine ⟨?_, by dsimp only; omega, by dsimp only; omega⟩
      rw [← ndig_le_iff, ndig_mul_ten_pow h0]
      have := (ndig_le_iff q precision).2 hq
      omega

theorem roundInc_range (m : Rounding) (sgn : Bool) (d : Nat) (t : Trunc) (q : Nat) :
    -1 ≤ roundInc m sgn d t q ∧ roundInc m sgn d t q ≤ 1 := by
  cases m <;> simp only [roundInc, incAway, incToZero] <;> split <;> (try split) <;> omega

/-- A decrement happens only to a significand above 0 (R200). -/
theorem roundInc_down {m : Rounding} {sgn : Bool} {d : Nat} {t : Trunc} {q : Nat} (h : roundInc m sgn d t q < 0) :
    0 < q := by
  have key : incToZero d t q < 0 → 0 < q := by
    intro h
    by_contra hc
    simp [incToZero, down, Nat.eq_zero_of_not_pos hc] at h
  have away0 : ¬ incAway d t < 0 := by unfold incAway; split <;> omega
  cases m <;> simp only [roundInc] at h
  · split at h <;> omega
  · split at h <;> omega
  · exact key h
  · exact absurd h away0
  · split at h
    · exact absurd h away0
    · exact key h
  · split at h
    · exact key h
    · exact absurd h away0

theorem carryDigit_spec {q : Nat} {e : Int} (hq : q ≤ 10 ^ precision) :
    (carryDigit q e).1 < 10 ^ precision ∧ e ≤ (carryDigit q e).2 ∧ (carryDigit q e).2 ≤ e + 1 := by
  unfold carryDigit
  split
  · exact ⟨Nat.pow_lt_pow_right (by decide) (by decide), by dsimp only; omega, le_rfl⟩
  · exact ⟨by dsimp only; omega, le_rfl, by dsimp only; omega⟩

/-- What a reduction writes is a significand of P digits, an exponent of R208, and a digit. -/
theorem reduceResult_spec {sig : Nat} (hs : sig < 2 ^ 256) {e : Int} (he : -32768 ≤ e ∧ e ≤ 32767) (m : Rounding)
    (sgn : Bool) (tin : Trunc) :
    (reduceResult sig e m sgn tin).r < 10 ^ precision ∧ (reduceResult sig e m sgn tin).rd ≤ 9 ∧
      ∃ x : Int, (reduceResult sig e m sgn tin).expo = some x ∧ 0 ≤ x ∧ x ≤ 32812 ∧
        ((reduceResult sig e m sgn tin).ovf = true ↔ eMax < x) := by
  have hk1 : precisionDigits sig ≤ 44 := by
    have := ndig_le_78 hs
    simp only [precisionDigits, precision]; omega
  unfold reduceResult
  dsimp only
  split
  · refine ⟨by simp only [reduced]; positivity, roundDigit_le _ _, bias, rfl, by decide, by decide, ?_⟩
    simp [reduced]
  · generalize hk2 : underflowDigits (e + ↑(precisionDigits sig)) = k2
    generalize hd : roundDigit sig (precisionDigits sig + k2) = d
    generalize truncState (belowRoundDigit sig (precisionDigits sig + k2)) tin = t
    have hlow : 0 ≤ e + ↑(precisionDigits sig) + ↑k2 := by
      simp only [underflowDigits, eMin] at hk2; omega
    have hhigh : e + ↑(precisionDigits sig) + ↑k2 ≤ 32811 := by
      simp only [underflowDigits, eMin] at hk2; omega
    obtain ⟨hq, h0, hle⟩ := headroom_spec (kept_lt sig k2) hlow
    generalize headroom (sig / 10 ^ (precisionDigits sig + k2)) (e + ↑(precisionDigits sig) + ↑k2) = h at hq h0 hle ⊢
    have hinc := roundInc_range m sgn d t h.1
    have hr : ((h.1 : Int) + roundInc m sgn d t h.1).toNat ≤ 10 ^ precision := by omega
    obtain ⟨hc, hc1, hc2⟩ := carryDigit_spec (e := h.2) hr
    refine ⟨hc, hd ▸ roundDigit_le _ _, _, rfl, by omega, by omega, ?_⟩
    simp [reduced]

end Sys2Proof.Machine
end

