-- ==== Sys2Proof/Laws/State.lean ====
section
/-!
SUPPORT. Every field after every named update of the state, so that no later proof unfolds a record update.
-/

namespace Sys2Proof.Machine

@[simp] theorem State.begin_a (v : Word) (n : Nat) (s : State) :
    (s.begin v n).a = s.a := rfl

@[simp] theorem State.begin_b (v : Word) (n : Nat) (s : State) :
    (s.begin v n).b = s.b := rfl

@[simp] theorem State.begin_r (v : Word) (n : Nat) (s : State) :
    (s.begin v n).r = s.r := rfl

@[simp] theorem State.begin_x (v : Word) (n : Nat) (s : State) :
    (s.begin v n).x = s.x := rfl

@[simp] theorem State.begin_expi (v : Word) (n : Nat) (s : State) :
    (s.begin v n).expi = s.expi := rfl

@[simp] theorem State.begin_expo (v : Word) (n : Nat) (s : State) :
    (s.begin v n).expo = s.expo := rfl

@[simp] theorem State.begin_cmd (v : Word) (n : Nat) (s : State) :
    (s.begin v n).cmd = v := rfl

@[simp] theorem State.begin_stat (v : Word) (n : Nat) (s : State) :
    (s.begin v n).stat = { s.stat with busy := true } := rfl

@[simp] theorem State.begin_cfg (v : Word) (n : Nat) (s : State) :
    (s.begin v n).cfg = s.cfg := rfl

@[simp] theorem State.begin_inFlight (v : Word) (n : Nat) (s : State) :
    (s.begin v n).inFlight = some (s.snapshot n) := rfl

@[simp] theorem State.begin_written (v : Word) (n : Nat) (s : State) :
    (s.begin v n).written = s.written := rfl

@[simp] theorem State.begin_ghost (v : Word) (n : Nat) (s : State) :
    (s.begin v n).ghost = { s.ghost with unsetRead := s.ghost.unsetRead || !(wordReads v).allSet s.written } := rfl

@[simp] theorem State.begin_draws (v : Word) (n : Nat) (s : State) :
    (s.begin v n).draws = s.draws := rfl

@[simp] theorem State.begin_inbox (v : Word) (n : Nat) (s : State) :
    (s.begin v n).inbox = s.inbox := rfl

@[simp] theorem State.begin_responses (v : Word) (n : Nat) (s : State) :
    (s.begin v n).responses = s.responses := rfl

@[simp] theorem State.start_a (v : Word) (s : State) :
    (s.start v).a = s.a := rfl

@[simp] theorem State.start_b (v : Word) (s : State) :
    (s.start v).b = s.b := rfl

@[simp] theorem State.start_r (v : Word) (s : State) :
    (s.start v).r = s.r := rfl

@[simp] theorem State.start_x (v : Word) (s : State) :
    (s.start v).x = s.x := rfl

@[simp] theorem State.start_expi (v : Word) (s : State) :
    (s.start v).expi = s.expi := rfl

@[simp] theorem State.start_expo (v : Word) (s : State) :
    (s.start v).expo = s.expo := rfl

@[simp] theorem State.start_cmd (v : Word) (s : State) :
    (s.start v).cmd = v := rfl

@[simp] theorem State.start_stat (v : Word) (s : State) :
    (s.start v).stat = { s.stat with busy := true } := rfl

@[simp] theorem State.start_cfg (v : Word) (s : State) :
    (s.start v).cfg = s.cfg := rfl

@[simp] theorem State.start_inFlight (v : Word) (s : State) :
    (s.start v).inFlight = some (s.snapshot (latency s.draws)) := rfl

@[simp] theorem State.start_written (v : Word) (s : State) :
    (s.start v).written = s.written := rfl

@[simp] theorem State.start_ghost (v : Word) (s : State) :
    (s.start v).ghost = { s.ghost with unsetRead := s.ghost.unsetRead || !(wordReads v).allSet s.written } := rfl

@[simp] theorem State.start_draws (v : Word) (s : State) :
    (s.start v).draws = s.draws + 1 := rfl

@[simp] theorem State.start_inbox (v : Word) (s : State) :
    (s.start v).inbox = s.inbox := rfl

@[simp] theorem State.start_responses (v : Word) (s : State) :
    (s.start v).responses = s.responses := rfl

@[simp] theorem State.succeed_a (res : Result) (s : State) :
    (s.succeed res).a = s.a := rfl

@[simp] theorem State.succeed_b (res : Result) (s : State) :
    (s.succeed res).b = s.b := rfl

@[simp] theorem State.succeed_r (res : Result) (s : State) :
    (s.succeed res).r = Limbs.ofNat res.r := rfl

@[simp] theorem State.succeed_x (res : Result) (s : State) :
    (s.succeed res).x = Limbs.ofNat res.x := rfl

@[simp] theorem State.succeed_expi (res : Result) (s : State) :
    (s.succeed res).expi = s.expi := rfl

@[simp] theorem State.succeed_expo (res : Result) (s : State) :
    (s.succeed res).expo = (match res.expo with | some e => BitVec.ofInt 64 e | none => s.expo) := rfl

@[simp] theorem State.succeed_cmd (res : Result) (s : State) :
    (s.succeed res).cmd = s.cmd := rfl

@[simp] theorem State.succeed_stat (res : Result) (s : State) :
    (s.succeed res).stat = Status.succeeded res := rfl

@[simp] theorem State.succeed_cfg (res : Result) (s : State) :
    (s.succeed res).cfg = s.cfg := rfl

@[simp] theorem State.succeed_inFlight (res : Result) (s : State) :
    (s.succeed res).inFlight = none := rfl

@[simp] theorem State.succeed_written (res : Result) (s : State) :
    (s.succeed res).written = { s.written with results := true, expo := s.written.expo || res.expo.isSome } := rfl

@[simp] theorem State.succeed_ghost (res : Result) (s : State) :
    (s.succeed res).ghost = s.ghost := rfl

@[simp] theorem State.succeed_draws (res : Result) (s : State) :
    (s.succeed res).draws = s.draws := rfl

@[simp] theorem State.succeed_inbox (res : Result) (s : State) :
    (s.succeed res).inbox = s.inbox := rfl

@[simp] theorem State.succeed_responses (res : Result) (s : State) :
    (s.succeed res).responses = s.responses := rfl

@[simp] theorem State.fail_a (e : CommandError) (s : State) :
    (s.fail e).a = s.a := rfl

@[simp] theorem State.fail_b (e : CommandError) (s : State) :
    (s.fail e).b = s.b := rfl

@[simp] theorem State.fail_r (e : CommandError) (s : State) :
    (s.fail e).r = s.r := rfl

@[simp] theorem State.fail_x (e : CommandError) (s : State) :
    (s.fail e).x = s.x := rfl

@[simp] theorem State.fail_expi (e : CommandError) (s : State) :
    (s.fail e).expi = s.expi := rfl

@[simp] theorem State.fail_expo (e : CommandError) (s : State) :
    (s.fail e).expo = s.expo := rfl

@[simp] theorem State.fail_cmd (e : CommandError) (s : State) :
    (s.fail e).cmd = s.cmd := rfl

@[simp] theorem State.fail_stat (e : CommandError) (s : State) :
    (s.fail e).stat = Status.failed e := rfl

@[simp] theorem State.fail_cfg (e : CommandError) (s : State) :
    (s.fail e).cfg = s.cfg := rfl

@[simp] theorem State.fail_inFlight (e : CommandError) (s : State) :
    (s.fail e).inFlight = none := rfl

@[simp] theorem State.fail_written (e : CommandError) (s : State) :
    (s.fail e).written = s.written := rfl

@[simp] theorem State.fail_ghost (e : CommandError) (s : State) :
    (s.fail e).ghost = { s.ghost with commandFailed := true } := rfl

@[simp] theorem State.fail_draws (e : CommandError) (s : State) :
    (s.fail e).draws = s.draws := rfl

@[simp] theorem State.fail_inbox (e : CommandError) (s : State) :
    (s.fail e).inbox = s.inbox := rfl

@[simp] theorem State.fail_responses (e : CommandError) (s : State) :
    (s.fail e).responses = s.responses := rfl

@[simp] theorem State.noteReads_a (d : Reads) (f : InFlight) (s : State) :
    (s.noteReads d f).a = s.a := rfl

@[simp] theorem State.noteReads_b (d : Reads) (f : InFlight) (s : State) :
    (s.noteReads d f).b = s.b := rfl

@[simp] theorem State.noteReads_r (d : Reads) (f : InFlight) (s : State) :
    (s.noteReads d f).r = s.r := rfl

@[simp] theorem State.noteReads_x (d : Reads) (f : InFlight) (s : State) :
    (s.noteReads d f).x = s.x := rfl

@[simp] theorem State.noteReads_expi (d : Reads) (f : InFlight) (s : State) :
    (s.noteReads d f).expi = s.expi := rfl

@[simp] theorem State.noteReads_expo (d : Reads) (f : InFlight) (s : State) :
    (s.noteReads d f).expo = s.expo := rfl

@[simp] theorem State.noteReads_cmd (d : Reads) (f : InFlight) (s : State) :
    (s.noteReads d f).cmd = s.cmd := rfl

@[simp] theorem State.noteReads_stat (d : Reads) (f : InFlight) (s : State) :
    (s.noteReads d f).stat = s.stat := rfl

@[simp] theorem State.noteReads_cfg (d : Reads) (f : InFlight) (s : State) :
    (s.noteReads d f).cfg = s.cfg := rfl

@[simp] theorem State.noteReads_inFlight (d : Reads) (f : InFlight) (s : State) :
    (s.noteReads d f).inFlight = s.inFlight := rfl

@[simp] theorem State.noteReads_written (d : Reads) (f : InFlight) (s : State) :
    (s.noteReads d f).written = s.written := rfl

@[simp] theorem State.noteReads_ghost (d : Reads) (f : InFlight) (s : State) :
    (s.noteReads d f).ghost = { s.ghost with unsetRead := s.ghost.unsetRead || !d.allSet f.written } := rfl

@[simp] theorem State.noteReads_draws (d : Reads) (f : InFlight) (s : State) :
    (s.noteReads d f).draws = s.draws := rfl

@[simp] theorem State.noteReads_inbox (d : Reads) (f : InFlight) (s : State) :
    (s.noteReads d f).inbox = s.inbox := rfl

@[simp] theorem State.noteReads_responses (d : Reads) (f : InFlight) (s : State) :
    (s.noteReads d f).responses = s.responses := rfl

@[simp] theorem State.respond_a (p : Response) (s : State) :
    (s.respond p).a = s.a := rfl

@[simp] theorem State.respond_b (p : Response) (s : State) :
    (s.respond p).b = s.b := rfl

@[simp] theorem State.respond_r (p : Response) (s : State) :
    (s.respond p).r = s.r := rfl

@[simp] theorem State.respond_x (p : Response) (s : State) :
    (s.respond p).x = s.x := rfl

@[simp] theorem State.respond_expi (p : Response) (s : State) :
    (s.respond p).expi = s.expi := rfl

@[simp] theorem State.respond_expo (p : Response) (s : State) :
    (s.respond p).expo = s.expo := rfl

@[simp] theorem State.respond_cmd (p : Response) (s : State) :
    (s.respond p).cmd = s.cmd := rfl

@[simp] theorem State.respond_stat (p : Response) (s : State) :
    (s.respond p).stat = s.stat := rfl

@[simp] theorem State.respond_cfg (p : Response) (s : State) :
    (s.respond p).cfg = s.cfg := rfl

@[simp] theorem State.respond_inFlight (p : Response) (s : State) :
    (s.respond p).inFlight = s.inFlight := rfl

@[simp] theorem State.respond_written (p : Response) (s : State) :
    (s.respond p).written = s.written := rfl

@[simp] theorem State.respond_ghost (p : Response) (s : State) :
    (s.respond p).ghost = s.ghost := rfl

@[simp] theorem State.respond_draws (p : Response) (s : State) :
    (s.respond p).draws = s.draws := rfl

@[simp] theorem State.respond_inbox (p : Response) (s : State) :
    (s.respond p).inbox = s.inbox := rfl

@[simp] theorem State.respond_responses (p : Response) (s : State) :
    (s.respond p).responses = s.responses ++ [p] := rfl

@[simp] theorem State.busError_a (s : State) :
    (s.busError).a = s.a := rfl

@[simp] theorem State.busError_b (s : State) :
    (s.busError).b = s.b := rfl

@[simp] theorem State.busError_r (s : State) :
    (s.busError).r = s.r := rfl

@[simp] theorem State.busError_x (s : State) :
    (s.busError).x = s.x := rfl

@[simp] theorem State.busError_expi (s : State) :
    (s.busError).expi = s.expi := rfl

@[simp] theorem State.busError_expo (s : State) :
    (s.busError).expo = s.expo := rfl

@[simp] theorem State.busError_cmd (s : State) :
    (s.busError).cmd = s.cmd := rfl

@[simp] theorem State.busError_stat (s : State) :
    (s.busError).stat = s.stat := rfl

@[simp] theorem State.busError_cfg (s : State) :
    (s.busError).cfg = s.cfg := rfl

@[simp] theorem State.busError_inFlight (s : State) :
    (s.busError).inFlight = s.inFlight := rfl

@[simp] theorem State.busError_written (s : State) :
    (s.busError).written = s.written := rfl

@[simp] theorem State.busError_ghost (s : State) :
    (s.busError).ghost = { s.ghost with busError := true } := rfl

@[simp] theorem State.busError_draws (s : State) :
    (s.busError).draws = s.draws := rfl

@[simp] theorem State.busError_inbox (s : State) :
    (s.busError).inbox = s.inbox := rfl

@[simp] theorem State.busError_responses (s : State) :
    (s.busError).responses = s.responses ++ [.busError] := rfl

@[simp] theorem State.applyReset_a (s : State) :
    (s.applyReset).a = Limbs.zero := rfl

@[simp] theorem State.applyReset_b (s : State) :
    (s.applyReset).b = Limbs.zero := rfl

@[simp] theorem State.applyReset_r (s : State) :
    (s.applyReset).r = Limbs.zero := rfl

@[simp] theorem State.applyReset_x (s : State) :
    (s.applyReset).x = Limbs.zero := rfl

@[simp] theorem State.applyReset_expi (s : State) :
    (s.applyReset).expi = 0#64 := rfl

@[simp] theorem State.applyReset_expo (s : State) :
    (s.applyReset).expo = 0#64 := rfl

@[simp] theorem State.applyReset_cmd (s : State) :
    (s.applyReset).cmd = 0#64 := rfl

@[simp] theorem State.applyReset_stat (s : State) :
    (s.applyReset).stat = Status.idle := rfl

@[simp] theorem State.applyReset_cfg (s : State) :
    (s.applyReset).cfg = s.cfg := rfl

@[simp] theorem State.applyReset_inFlight (s : State) :
    (s.applyReset).inFlight = none := rfl

@[simp] theorem State.applyReset_written (s : State) :
    (s.applyReset).written = Written.none := rfl

@[simp] theorem State.applyReset_ghost (s : State) :
    (s.applyReset).ghost = s.ghost := rfl

@[simp] theorem State.applyReset_draws (s : State) :
    (s.applyReset).draws = s.draws := rfl

@[simp] theorem State.applyReset_inbox (s : State) :
    (s.applyReset).inbox = s.inbox := rfl

@[simp] theorem State.applyReset_responses (s : State) :
    (s.applyReset).responses = s.responses := rfl

@[simp] theorem State.tick_a (s : State) :
    (s.tick).a = s.a := rfl

@[simp] theorem State.tick_b (s : State) :
    (s.tick).b = s.b := rfl

@[simp] theorem State.tick_r (s : State) :
    (s.tick).r = s.r := rfl

@[simp] theorem State.tick_x (s : State) :
    (s.tick).x = s.x := rfl

@[simp] theorem State.tick_expi (s : State) :
    (s.tick).expi = s.expi := rfl

@[simp] theorem State.tick_expo (s : State) :
    (s.tick).expo = s.expo := rfl

@[simp] theorem State.tick_cmd (s : State) :
    (s.tick).cmd = s.cmd := rfl

@[simp] theorem State.tick_stat (s : State) :
    (s.tick).stat = s.stat := rfl

@[simp] theorem State.tick_cfg (s : State) :
    (s.tick).cfg = s.cfg := rfl

@[simp] theorem State.tick_inFlight (s : State) :
    (s.tick).inFlight = s.inFlight.map (fun f => { f with cyclesLeft := f.cyclesLeft - 1 }) := rfl

@[simp] theorem State.tick_written (s : State) :
    (s.tick).written = s.written := rfl

@[simp] theorem State.tick_ghost (s : State) :
    (s.tick).ghost = s.ghost := rfl

@[simp] theorem State.tick_draws (s : State) :
    (s.tick).draws = s.draws := rfl

@[simp] theorem State.tick_inbox (s : State) :
    (s.tick).inbox = s.inbox := rfl

@[simp] theorem State.tick_responses (s : State) :
    (s.tick).responses = s.responses := rfl

@[simp] theorem State.placeCommand_a (v : Word) (s : State) :
    (s.placeCommand v).a = s.a := rfl

@[simp] theorem State.placeCommand_b (v : Word) (s : State) :
    (s.placeCommand v).b = s.b := rfl

@[simp] theorem State.placeCommand_r (v : Word) (s : State) :
    (s.placeCommand v).r = s.r := rfl

@[simp] theorem State.placeCommand_x (v : Word) (s : State) :
    (s.placeCommand v).x = s.x := rfl

@[simp] theorem State.placeCommand_expi (v : Word) (s : State) :
    (s.placeCommand v).expi = s.expi := rfl

@[simp] theorem State.placeCommand_expo (v : Word) (s : State) :
    (s.placeCommand v).expo = s.expo := rfl

@[simp] theorem State.placeCommand_cmd (v : Word) (s : State) :
    (s.placeCommand v).cmd = v := rfl

@[simp] theorem State.placeCommand_stat (v : Word) (s : State) :
    (s.placeCommand v).stat = { s.stat with busy := true } := rfl

@[simp] theorem State.placeCommand_cfg (v : Word) (s : State) :
    (s.placeCommand v).cfg = s.cfg := rfl

@[simp] theorem State.placeCommand_inFlight (v : Word) (s : State) :
    (s.placeCommand v).inFlight = some (s.snapshot 1) := rfl

@[simp] theorem State.placeCommand_written (v : Word) (s : State) :
    (s.placeCommand v).written = s.written := rfl

@[simp] theorem State.placeCommand_ghost (v : Word) (s : State) :
    (s.placeCommand v).ghost =
      { s.ghost with unsetRead := s.ghost.unsetRead || !(wordReads v).allSet s.written } := rfl

@[simp] theorem State.placeCommand_draws (v : Word) (s : State) :
    (s.placeCommand v).draws = s.draws := rfl

@[simp] theorem State.placeCommand_inbox (v : Word) (s : State) :
    (s.placeCommand v).inbox = s.inbox.dropWhile (fun e => e == .reset) := rfl

@[simp] theorem State.placeCommand_responses (v : Word) (s : State) :
    (s.placeCommand v).responses = s.responses := rfl

@[simp] theorem State.snapshot_a (s : State) (n : Nat) : (s.snapshot n).a = s.a := rfl

@[simp] theorem State.snapshot_b (s : State) (n : Nat) : (s.snapshot n).b = s.b := rfl

@[simp] theorem State.snapshot_expi (s : State) (n : Nat) : (s.snapshot n).expi = s.expi.extractLsb' 0 16 := rfl

@[simp] theorem State.snapshot_written (s : State) (n : Nat) : (s.snapshot n).written = s.written := rfl

@[simp] theorem State.snapshot_cyclesLeft (s : State) (n : Nat) : (s.snapshot n).cyclesLeft = n := rfl

@[simp] theorem Status.succeeded_busy (res : Result) : (Status.succeeded res).busy = false := rfl

@[simp] theorem Status.succeeded_c (res : Result) : (Status.succeeded res).c = res.c := rfl

@[simp] theorem Status.succeeded_z (res : Result) : (Status.succeeded res).z = (Limbs.ofNat res.r).isZero := rfl

@[simp] theorem Status.succeeded_ovf (res : Result) : (Status.succeeded res).ovf = res.ovf := rfl

@[simp] theorem Status.succeeded_trunc (res : Result) : (Status.succeeded res).trunc = res.trunc := rfl

@[simp] theorem Status.succeeded_err (res : Result) : (Status.succeeded res).err = none := rfl

@[simp] theorem Status.succeeded_rd (res : Result) : (Status.succeeded res).rd = BitVec.ofNat 4 res.rd := rfl

@[simp] theorem Status.failed_busy (e : CommandError) : (Status.failed e).busy = false := rfl

@[simp] theorem Status.failed_c (e : CommandError) : (Status.failed e).c = false := rfl

@[simp] theorem Status.failed_z (e : CommandError) : (Status.failed e).z = false := rfl

@[simp] theorem Status.failed_ovf (e : CommandError) : (Status.failed e).ovf = false := rfl

@[simp] theorem Status.failed_trunc (e : CommandError) : (Status.failed e).trunc = .ex := rfl

@[simp] theorem Status.failed_err (e : CommandError) : (Status.failed e).err = some e := rfl

@[simp] theorem Status.failed_rd (e : CommandError) : (Status.failed e).rd = 0#4 := rfl

end Sys2Proof.Machine
end

