-- ==== Sys2Proof/Laws/Commands.lean ====
section
/-!
SUPPORT. Everything a command can do: `runCommand` answered once (R110), the meaning of every instruction as a body under it
(`exec_cases`), and what completing or failing keeps.
-/

namespace Sys2Proof.Machine

/-- With a command in flight, the common frame answers a next state (R110). -/
theorem runCommand_next {s : State} {f : InFlight} (h : s.inFlight = some f)
    (body : InFlight → Except CommandError Result) : runCommand body s = .next (s.finish (body f)) := by
  simp [runCommand, h]

/-- What `runCommand` answers a next state for, and which. -/
theorem runCommand_cases {body : InFlight → Except CommandError Result} {s t : State}
    (h : runCommand body s = .next t) : ∃ f, s.inFlight = some f ∧ t = s.finish (body f) := by
  unfold runCommand at h
  split at h
  · cases h
  · rename_i f hf
    exact ⟨f, hf, by injection h with h; exact h.symm⟩

theorem runCommand_no_refusal (body : InFlight → Except CommandError Result) (s : State) (q : Refusal) :
    runCommand body s ≠ .refused q := by
  unfold runCommand
  split <;> simp

/-- The outcome of a command is one the registers can hold: a digit in RD, an exponent of R208 in EXPO. -/
def OutcomeOk (out : Except CommandError Result) : Prop :=
  ∀ res, out = .ok res → res.rd ≤ 9 ∧ ∀ e, res.expo = some e → 0 ≤ e ∧ e ≤ 32812

theorem outcomeOk_error (e : CommandError) : OutcomeOk (.error e) := fun _ h => by cases h

theorem outcomeOk_plain {res : Result} (hd : res.rd ≤ 9) (he : res.expo = none) : OutcomeOk (.ok res) := by
  intro r h
  injection h with h
  subst h
  exact ⟨hd, fun e h => by simp [he] at h⟩

theorem exponentIn_range (e : BitVec 16) : -32768 ≤ exponentIn e ∧ exponentIn e ≤ 32767 := by
  have h1 := BitVec.le_toInt e
  have h2 := BitVec.toInt_lt (x := e)
  simp only [exponentIn]; omega

theorem outcomeOk_reduce (w : Width) (g : Limbs) (e : BitVec 16) (m : Rounding) (sgn : Bool) (t : Trunc) :
    OutcomeOk (.ok (reduceResult (g.low w) (exponentIn e) m sgn t)) := by
  intro r h
  injection h with h
  subst h
  obtain ⟨-, hd, x, hx, h0, h1, -⟩ := reduceResult_spec (g.low_lt_256 w) (exponentIn_range e) m sgn t
  exact ⟨hd, fun e he => by rw [hx] at he; injection he with he; omega⟩

/-- A meaning is a body under the common frame, whatever the state; a body depends on the command in flight and on
DEFMODE only (R39, R110, R210). -/
def Framed (run : State → Answer) : Prop :=
  ∃ body : Rounding → InFlight → Except CommandError Result,
    (∀ s, run s = runCommand (body s.cfg.defMode) s) ∧ ∀ g f, OutcomeOk (body g f)

theorem framed_plain (body : InFlight → Except CommandError Result) (h : ∀ f, OutcomeOk (body f)) :
    Framed (runCommand body) :=
  ⟨fun _ => body, fun _ => rfl, fun _ => h⟩

theorem framed_add (w : Width) : Framed (runAdd w) :=
  framed_plain _ fun _ => outcomeOk_plain (Nat.zero_le 9) rfl

theorem framed_sub (w : Width) : Framed (runSub w) :=
  framed_plain _ fun _ => outcomeOk_plain (Nat.zero_le 9) rfl

theorem framed_neg (w : Width) : Framed (runNeg w) :=
  framed_plain _ fun _ => outcomeOk_plain (Nat.zero_le 9) rfl

theorem framed_mul (w : Width) : Framed (runMul w) :=
  framed_plain _ fun _ => outcomeOk_plain (Nat.zero_le 9) rfl

theorem framed_mul64 (w : Width) : Framed (runMul64 w) :=
  framed_plain _ fun _ => outcomeOk_plain (Nat.zero_le 9) rfl

theorem framed_mulP10 (w : Width) (k : MulFactor) : Framed (runMulP10 w k) :=
  framed_plain _ fun _ => outcomeOk_plain (Nat.zero_le 9) rfl

theorem framed_div (w : Width) : Framed (runDiv w) := by
  refine framed_plain _ fun f => ?_
  unfold divOutcome
  split
  · exact outcomeOk_error _
  · exact outcomeOk_plain (Nat.zero_le 9) rfl

theorem framed_divP10 (w : Width) (k : DivFactor) : Framed (runDivP10 w k) :=
  framed_plain _ fun _ => outcomeOk_plain (Nat.zero_le 9) rfl

theorem framed_lsh (w : Width) : Framed (runLsh w) :=
  framed_plain _ fun _ => outcomeOk_plain (Nat.zero_le 9) rfl

theorem framed_rsh (w : Width) : Framed (runRsh w) :=
  framed_plain _ fun _ => outcomeOk_plain (Nat.zero_le 9) rfl

theorem framed_lzc (w : Width) : Framed (runLzc w) :=
  framed_plain _ fun _ => outcomeOk_plain (Nat.zero_le 9) rfl

theorem framed_log10 : Framed runLog10 := by
  refine framed_plain _ fun f => ?_
  unfold log10Outcome
  split
  · exact outcomeOk_error _
  · exact outcomeOk_plain (Nat.zero_le 9) rfl

theorem framed_reduce (w : Width) (rm : BitVec 3) (sgn : Bool) (tin : BitVec 2) : Framed (runReduce w rm sgn tin) := by
  refine ⟨fun g f => match roundingOf rm g, truncOf tin with
      | some m, some t => .ok (reduceResult (f.a.low w) (exponentIn f.expi) m sgn t)
      | none, _ => .error .illegal
      | some _, none => .error .illegal, fun s => ?_, fun g f => ?_⟩
  · simp only [runReduce, runIllegal]
    cases roundingOf rm s.cfg.defMode <;> cases truncOf tin <;> rfl
  · dsimp only
    cases roundingOf rm g <;> cases truncOf tin <;> first | exact outcomeOk_error _ | exact outcomeOk_reduce _ _ _ _ _ _

/-- Every instruction is a body under the common frame (R110). -/
theorem exec_framed (i : Instr) : Framed (exec i) := by
  cases i
  case add_128 | add_192 | add_256 => exact framed_add _
  case sub_128 | sub_192 | sub_256 => exact framed_sub _
  case neg_128 | neg_192 | neg_256 => exact framed_neg _
  case mul_128 | mul_192 | mul_256 => exact framed_mul _
  case mul64_128 | mul64_192 | mul64_256 => exact framed_mul64 _
  case div_128 | div_192 | div_256 => exact framed_div _
  case lsh_128 | lsh_192 | lsh_256 => exact framed_lsh _
  case rsh_128 | rsh_192 | rsh_256 => exact framed_rsh _
  case lzc_128 | lzc_192 | lzc_256 => exact framed_lzc _
  case log10_128 => exact framed_log10
  case reduce_128 | reduce_192 | reduce_256 => exact framed_reduce _ _ _ _
  case divp10_128_1 | divp10_128_3 | divp10_128_4 | divp10_128_8 | divp10_128_19 | divp10_192_1 | divp10_192_3
    | divp10_192_4 | divp10_192_8 | divp10_192_19 | divp10_256_1 | divp10_256_3 | divp10_256_4 | divp10_256_8
    | divp10_256_19 => exact framed_divP10 _ _
  all_goals exact framed_mulP10 _ _

/-- What an instruction can do: with no command in flight it faults; else it completes or fails from the snapshot. -/
theorem exec_cases (i : Instr) (s : State) :
    (s.inFlight = none ∧ exec i s = .fault .noCommandInFlight) ∨
      ∃ f out, s.inFlight = some f ∧ OutcomeOk out ∧ exec i s = .next (s.finish out) := by
  obtain ⟨body, h, hok⟩ := exec_framed i
  cases hf : s.inFlight with
  | none => exact .inl ⟨rfl, by rw [h s]; simp [runCommand, hf]⟩
  | some f => exact .inr ⟨f, _, rfl, hok _ f, by rw [h s, runCommand_next hf]⟩

/-! ## The meaning of a family, by width and factor -/

theorem exec_add (w : Width) (s : State) : exec (.add w) s = runAdd w s := by cases w <;> rfl

theorem exec_sub (w : Width) (s : State) : exec (.sub w) s = runSub w s := by cases w <;> rfl

theorem exec_neg (w : Width) (s : State) : exec (.neg w) s = runNeg w s := by cases w <;> rfl

theorem exec_mul (w : Width) (s : State) : exec (.mul w) s = runMul w s := by cases w <;> rfl

theorem exec_mul64 (w : Width) (s : State) : exec (.mul64 w) s = runMul64 w s := by cases w <;> rfl

theorem exec_div (w : Width) (s : State) : exec (.div w) s = runDiv w s := by cases w <;> rfl

theorem exec_lsh (w : Width) (s : State) : exec (.lsh w) s = runLsh w s := by cases w <;> rfl

theorem exec_rsh (w : Width) (s : State) : exec (.rsh w) s = runRsh w s := by cases w <;> rfl

theorem exec_lzc (w : Width) (s : State) : exec (.lzc w) s = runLzc w s := by cases w <;> rfl

theorem exec_mulp10 (w : Width) (k : MulFactor) (s : State) : exec (.mulp10 w k) s = runMulP10 w k s := by
  cases w <;> cases k <;> rfl

theorem exec_divp10 (w : Width) (k : DivFactor) (s : State) : exec (.divp10 w k) s = runDivP10 w k s := by
  cases w <;> cases k <;> rfl

theorem exec_reduce (w : Width) (rm : BitVec 3) (sgn : Bool) (tin : BitVec 2) (s : State) :
    exec (.reduce w rm sgn tin) s = runReduce w rm sgn tin s := by
  cases w <;> rfl

/-- A legal REDUCE with a command in flight (R190). -/
theorem exec_reduce_legal {w : Width} {rm : BitVec 3} {sgn : Bool} {tin : BitVec 2} {m : Rounding} {tn : Trunc} {s : State}
    {f : InFlight} (hf : s.inFlight = some f) (hm : roundingOf rm s.cfg.defMode = some m) (ht : truncOf tin = some tn) :
    exec (.reduce w rm sgn tin) s =
      .next (s.succeed (reduceResult (f.a.low w) (exponentIn f.expi) m sgn tn)) := by
  rw [exec_reduce, runReduce, hm, ht]
  exact runCommand_next hf _

/-- The instructions of the opcode REDUCE (R89). -/
theorem reduce_of_op {i : Instr} (h : i.fields.op = .reduce) : ∃ w rm sgn tin, i = .reduce w rm sgn tin := by
  cases i
  case reduce_128 a b c => exact ⟨.w128, a, b, c, rfl⟩
  case reduce_192 a b c => exact ⟨.w192, a, b, c, rfl⟩
  case reduce_256 a b c => exact ⟨.w256, a, b, c, rfl⟩
  all_goals cases h

/-- The two ways a command ends (R40, R231). -/
theorem finish_cases (out : Except CommandError Result) (s : State) :
    (∃ res, out = .ok res ∧ s.finish out = s.succeed res) ∨ (∃ e, out = .error e ∧ s.finish out = s.fail e) := by
  cases out with
  | ok res => exact .inl ⟨res, rfl, rfl⟩
  | error e => exact .inr ⟨e, rfl, rfl⟩

@[simp] theorem finish_ok (res : Result) (s : State) : s.finish (.ok res) = s.succeed res := rfl

@[simp] theorem finish_error (e : CommandError) (s : State) : s.finish (.error e) = s.fail e := rfl

/-- A command other than REDUCE that succeeds with the numbers `r`, `x` and the flag `c` (R110). -/
theorem completion_plain (s : State) (r x : Nat) (c : Bool) :
    Completion s (s.succeed { r := r, x := x, c := c }) (r % 2 ^ 256) (x % 2 ^ 256) c where
  r_eq := Limbs.toNat_ofNat r
  x_eq := Limbs.toNat_ofNat x
  stat_eq := by
    simp only [State.succeed_stat, Status.succeeded]
    rw [Limbs.isZero_ofNat_eq]
  expo_eq := rfl
  results_set := rfl
  expo_mark := Bool.or_false _
  idle := rfl
  not_failed := rfl
  inputs := by constructor <;> rfl

/-- A command that fails (R231). -/
theorem failure_plain (s : State) (e : CommandError) : Failure s (s.fail e) e where
  stat_eq := rfl
  results := ⟨rfl, rfl, rfl, rfl⟩
  idle := rfl
  recorded := rfl
  inputs := by constructor <;> rfl

/-- A reduction that succeeds (R205, R206). -/
theorem completion_reduced (s : State) {q : Nat} (hq : q < 2 ^ 256) {e : Int} (h0 : 0 ≤ e)
    (h1 : e ≤ 32812) (tr : Trunc) {rd : Nat} (hd : rd ≤ 9) :
    ReduceCompletion s (s.succeed (reduced q e tr rd)) q e tr rd where
  r_eq := by
    simp only [State.succeed_r, reduced, Limbs.toNat_ofNat]
    exact Nat.mod_eq_of_lt hq
  x_eq := Limbs.toNat_ofNat 0
  expo_eq := by
    simp only [State.succeed_expo, reduced, BitVec.toInt_ofInt]
    exact Int.bmod_eq_of_le (by omega) (by omega)
  busy_eq := rfl
  c_eq := rfl
  z_eq := by
    simp only [State.succeed_stat, Status.succeeded_z, reduced]
    rw [Limbs.isZero_ofNat_eq, Nat.mod_eq_of_lt hq]
  ovf_eq := by simp [reduced, eMax]
  trunc_eq := rfl
  err_eq := rfl
  rd_eq := by
    simp only [State.succeed_stat, Status.succeeded_rd, reduced, BitVec.toNat_ofNat]
    omega
  results_set := rfl
  expo_set := Bool.or_true _
  idle := rfl
  not_failed := rfl
  inputs := by constructor <;> rfl

end Sys2Proof.Machine
end

