-- ==== Sys2Proof/Laws/Encoding.lean ====
section
/-!
SUPPORT. The command word as a number (R81): its fields are the digits of the word, both ways.
-/

namespace Sys2Proof

theorem append_toNat {n m : Nat} (x : BitVec n) (y : BitVec m) : (x ++ y).toNat = x.toNat * 2 ^ m + y.toNat := by
  rw [BitVec.toNat_append, ← Nat.shiftLeft_add_eq_or_of_lt y.isLt, Nat.shiftLeft_eq]

/-- The word's value by its fields (R81). -/
theorem Fields.word_toNat (f : Fields) :
    f.word.toNat = f.op.code.toNat + 2 ^ 8 * f.w.code.toNat + 2 ^ 10 * f.k.toNat + 2 ^ 16 * f.rm.toNat +
      2 ^ 19 * f.sgn.toNat + 2 ^ 20 * f.tin.toNat := by
  have h : f.word.toNat =
      (((((0 * 2 ^ 2 + f.tin.toNat) * 2 ^ 1 + (BitVec.ofBool f.sgn).toNat) * 2 ^ 3 + f.rm.toNat) * 2 ^ 6 + f.k.toNat) *
        2 ^ 2 + f.w.code.toNat) * 2 ^ 8 + f.op.code.toNat := by
    unfold Fields.word
    simp only [append_toNat]
    rfl
  rw [h, BitVec.toNat_ofBool]
  omega

theorem field_toNat (v : Word) (start len : Nat) : (v.extractLsb' start len).toNat = v.toNat / 2 ^ start % 2 ^ len := by
  rw [BitVec.extractLsb'_toNat, Nat.shiftRight_eq_div_pow]

theorem fieldSgn_toNat (v : Word) : (fieldSgn v).toNat = v.toNat / 2 ^ 19 % 2 := by
  rw [fieldSgn, BitVec.getLsbD, Nat.testBit_eq_decide_div_mod_eq]
  rcases Nat.mod_two_eq_zero_or_one (v.toNat / 2 ^ 19) with h | h <;> rw [h] <;> rfl

theorem toNat_bool_ext {a b : Bool} (h : a.toNat = b.toNat) : a = b := by revert h; cases a <;> cases b <;> simp

/-- The fields of the word of some fields are those fields (R81). -/
theorem Fields.word_fields (f : Fields) :
    fieldOpc f.word = f.op.code ∧ fieldW f.word = f.w.code ∧ fieldK f.word = f.k ∧ fieldRm f.word = f.rm ∧
      fieldSgn f.word = f.sgn ∧ fieldTin f.word = f.tin ∧ fieldReserved f.word = 0#42 := by
  have h := f.word_toNat
  have h1 := f.op.code.isLt; have h2 := f.w.code.isLt; have h3 := f.k.isLt; have h4 := f.rm.isLt
  have h5 := f.sgn.toNat_le; have h6 := f.tin.isLt
  refine ⟨?_, ?_, ?_, ?_, ?_, ?_, ?_⟩
  · apply BitVec.eq_of_toNat_eq; rw [fieldOpc, field_toNat, h]; omega
  · apply BitVec.eq_of_toNat_eq; rw [fieldW, field_toNat, h]; omega
  · apply BitVec.eq_of_toNat_eq; rw [fieldK, field_toNat, h]; omega
  · apply BitVec.eq_of_toNat_eq; rw [fieldRm, field_toNat, h]; omega
  · apply toNat_bool_ext; rw [fieldSgn_toNat, h]; omega
  · apply BitVec.eq_of_toNat_eq; rw [fieldTin, field_toNat, h]; omega
  · apply BitVec.eq_of_toNat_eq; rw [fieldReserved, field_toNat, h, BitVec.toNat_ofNat]; omega

/-- A word is determined by its fields (R81). -/
theorem word_ext {v u : Word} (h1 : fieldOpc v = fieldOpc u) (h2 : fieldW v = fieldW u) (h3 : fieldK v = fieldK u)
    (h4 : fieldRm v = fieldRm u) (h5 : fieldSgn v = fieldSgn u) (h6 : fieldTin v = fieldTin u)
    (h7 : fieldReserved v = fieldReserved u) : v = u := by
  have e1 := congrArg BitVec.toNat h1
  have e2 := congrArg BitVec.toNat h2
  have e3 := congrArg BitVec.toNat h3
  have e4 := congrArg BitVec.toNat h4
  have e5 := congrArg Bool.toNat h5
  have e6 := congrArg BitVec.toNat h6
  have e7 := congrArg BitVec.toNat h7
  simp only [fieldOpc, fieldW, fieldK, fieldRm, fieldTin, fieldReserved, field_toNat, fieldSgn_toNat] at e1 e2 e3 e4 e5 e6 e7
  have := v.isLt; have := u.isLt
  apply BitVec.eq_of_toNat_eq
  omega

/-- An opcode number names an operation only if it is the operation's number (R89). -/
theorem Op.ofCode_eq {c : BitVec 8} {op : Op} (h : Op.ofCode c = some op) : c = op.code := by
  have key : ∀ c, ∀ op ∈ Op.ofCode c, c = op.code := by decide
  exact key c op h

theorem Width.ofCode_eq {c : BitVec 2} {w : Width} (h : Width.ofCode c = some w) : c = w.code := by
  have key : ∀ c, ∀ w ∈ Width.ofCode c, c = w.code := by decide
  exact key c w h

theorem MulFactor.ofCode_eq {c : BitVec 6} {k : MulFactor} (h : MulFactor.ofCode c = some k) :
    c = BitVec.ofNat 6 k.exponent := by
  have key : ∀ c, ∀ k ∈ MulFactor.ofCode c, c = BitVec.ofNat 6 k.exponent := by decide
  exact key c k h

theorem DivFactor.ofCode_eq {c : BitVec 6} {k : DivFactor} (h : DivFactor.ofCode c = some k) :
    c = BitVec.ofNat 6 k.exponent := by
  have key : ∀ c, ∀ k ∈ DivFactor.ofCode c, c = BitVec.ofNat 6 k.exponent := by decide
  exact key c k h

end Sys2Proof
end

