-- ==== Sys2Proof/Laws/PerInstr.lean ====
section
/-!
SUPPORT. What is said of every instruction, one lemma a constructor. EncodedWord: its word has zeros in the reserved bits
(R90) and carries the codes of its operation and its width (R81, R89).
-/

namespace Sys2Proof.Laws.EncodedWord

/-- The word of the instruction has bits [63:22] zero, its operation's number in OPC and its width's code in W. -/
def Statement (i : Instr) : Prop :=
  fieldReserved (encode i) = 0#42 ∧ fieldOpc (encode i) = i.fields.op.code ∧ fieldW (encode i) = i.fields.w.code

theorem of_fields (i : Instr) : Statement i :=
  have h := i.fields.word_fields
  ⟨h.2.2.2.2.2.2, h.1, h.2.1⟩

theorem add_128 : Statement .add_128 := of_fields _

theorem add_192 : Statement .add_192 := of_fields _

theorem add_256 : Statement .add_256 := of_fields _

theorem sub_128 : Statement .sub_128 := of_fields _

theorem sub_192 : Statement .sub_192 := of_fields _

theorem sub_256 : Statement .sub_256 := of_fields _

theorem neg_128 : Statement .neg_128 := of_fields _

theorem neg_192 : Statement .neg_192 := of_fields _

theorem neg_256 : Statement .neg_256 := of_fields _

theorem mul_128 : Statement .mul_128 := of_fields _

theorem mul_192 : Statement .mul_192 := of_fields _

theorem mul_256 : Statement .mul_256 := of_fields _

theorem mul64_128 : Statement .mul64_128 := of_fields _

theorem mul64_192 : Statement .mul64_192 := of_fields _

theorem mul64_256 : Statement .mul64_256 := of_fields _

theorem mulp10_128_1 : Statement .mulp10_128_1 := of_fields _

theorem mulp10_128_2 : Statement .mulp10_128_2 := of_fields _

theorem mulp10_128_3 : Statement .mulp10_128_3 := of_fields _

theorem mulp10_128_4 : Statement .mulp10_128_4 := of_fields _

theorem mulp10_128_8 : Statement .mulp10_128_8 := of_fields _

theorem mulp10_128_19 : Statement .mulp10_128_19 := of_fields _

theorem mulp10_128_38 : Statement .mulp10_128_38 := of_fields _

theorem mulp10_192_1 : Statement .mulp10_192_1 := of_fields _

theorem mulp10_192_2 : Statement .mulp10_192_2 := of_fields _

theorem mulp10_192_3 : Statement .mulp10_192_3 := of_fields _

theorem mulp10_192_4 : Statement .mulp10_192_4 := of_fields _

theorem mulp10_192_8 : Statement .mulp10_192_8 := of_fields _

theorem mulp10_192_19 : Statement .mulp10_192_19 := of_fields _

theorem mulp10_192_38 : Statement .mulp10_192_38 := of_fields _

theorem mulp10_256_1 : Statement .mulp10_256_1 := of_fields _

theorem mulp10_256_2 : Statement .mulp10_256_2 := of_fields _

theorem mulp10_256_3 : Statement .mulp10_256_3 := of_fields _

theorem mulp10_256_4 : Statement .mulp10_256_4 := of_fields _

theorem mulp10_256_8 : Statement .mulp10_256_8 := of_fields _

theorem mulp10_256_19 : Statement .mulp10_256_19 := of_fields _

theorem mulp10_256_38 : Statement .mulp10_256_38 := of_fields _

theorem div_128 : Statement .div_128 := of_fields _

theorem div_192 : Statement .div_192 := of_fields _

theorem div_256 : Statement .div_256 := of_fields _

theorem divp10_128_1 : Statement .divp10_128_1 := of_fields _

theorem divp10_128_3 : Statement .divp10_128_3 := of_fields _

theorem divp10_128_4 : Statement .divp10_128_4 := of_fields _

theorem divp10_128_8 : Statement .divp10_128_8 := of_fields _

theorem divp10_128_19 : Statement .divp10_128_19 := of_fields _

theorem divp10_192_1 : Statement .divp10_192_1 := of_fields _

theorem divp10_192_3 : Statement .divp10_192_3 := of_fields _

theorem divp10_192_4 : Statement .divp10_192_4 := of_fields _

theorem divp10_192_8 : Statement .divp10_192_8 := of_fields _

theorem divp10_192_19 : Statement .divp10_192_19 := of_fields _

theorem divp10_256_1 : Statement .divp10_256_1 := of_fields _

theorem divp10_256_3 : Statement .divp10_256_3 := of_fields _

theorem divp10_256_4 : Statement .divp10_256_4 := of_fields _

theorem divp10_256_8 : Statement .divp10_256_8 := of_fields _

theorem divp10_256_19 : Statement .divp10_256_19 := of_fields _

theorem lsh_128 : Statement .lsh_128 := of_fields _

theorem lsh_192 : Statement .lsh_192 := of_fields _

theorem lsh_256 : Statement .lsh_256 := of_fields _

theorem rsh_128 : Statement .rsh_128 := of_fields _

theorem rsh_192 : Statement .rsh_192 := of_fields _

theorem rsh_256 : Statement .rsh_256 := of_fields _

theorem lzc_128 : Statement .lzc_128 := of_fields _

theorem lzc_192 : Statement .lzc_192 := of_fields _

theorem lzc_256 : Statement .lzc_256 := of_fields _

theorem log10_128 : Statement .log10_128 := of_fields _

theorem reduce_128 (rm : BitVec 3) (sgn : Bool) (tin : BitVec 2) : Statement (.reduce_128 rm sgn tin) := of_fields _

theorem reduce_192 (rm : BitVec 3) (sgn : Bool) (tin : BitVec 2) : Statement (.reduce_192 rm sgn tin) := of_fields _

theorem reduce_256 (rm : BitVec 3) (sgn : Bool) (tin : BitVec 2) : Statement (.reduce_256 rm sgn tin) := of_fields _

end Sys2Proof.Laws.EncodedWord
end

