-- ==== Sys2Proof/Laws/Window.lean ====
section
/-!
SUPPORT. The register window: the map of R62 and its inverse, and everything one host access can do (R61 to R68).
-/

namespace Sys2Proof.Machine

/-- The map of R62 and the offsets agree. -/
theorem regAt_offsetOf (g : Reg) : regAt (offsetOf g) = some g := by
  cases g with
  | a i => fin_cases i <;> rfl
  | b i => fin_cases i <;> rfl
  | r i => fin_cases i <;> rfl
  | x i => fin_cases i <;> rfl
  | expi => rfl
  | expo => rfl
  | cmd => rfl
  | stat => rfl
  | cfg => rfl

/-- An offset has a register exactly when it is a multiple of 8 below the reserved range (R62, R64). -/
theorem regAt_isSome (off : BitVec 8) : (regAt off).isSome = (decide (off.toNat % 8 = 0) && decide (off.toNat ≤ 0xA0)) := by
  revert off
  decide

theorem target_cases {off : BitVec 8} {size : Nat} {g : Reg} (h : target off size = some g) :
    size = 8 ∧ regAt off = some g := by
  unfold target at h
  split at h
  · exact ⟨‹_›, h⟩
  · cases h

/-- A host write a register takes: a limb of A or B, EXPI, or CMD while idle (R62, R64, R65). -/
theorem writeReg_cases {g : Reg} {v : Word} {s t : State} (h : s.writeReg g v = some t) :
    (∃ i, g = .a i ∧ t = { s with a := s.a.set i v, written := { s.written with a := s.written.a.mark i } }) ∨
    (∃ i, g = .b i ∧ t = { s with b := s.b.set i v, written := { s.written with b := s.written.b.mark i } }) ∨
    (g = .expi ∧ t = { s with expi := v, written := { s.written with expi := true } }) ∨
    (g = .cmd ∧ s.stat.busy = false ∧ t = s.start v) := by
  cases g <;> simp only [State.writeReg] at h
  case a i => injection h with h; exact .inl ⟨i, rfl, h.symm⟩
  case b i => injection h with h; exact .inr (.inl ⟨i, rfl, h.symm⟩)
  case expi => injection h with h; exact .inr (.inr (.inl ⟨rfl, h.symm⟩))
  case cmd =>
    split at h
    · cases h
    · injection h with h
      rename_i hb
      exact .inr (.inr (.inr ⟨rfl, by simpa using hb, h.symm⟩))
  all_goals cases h

/-- A read changes no register of the unit (R65): only the answers, the sticky record and the count of draws. -/
theorem hostRead_eq (g : Reg) (s : State) :
    ∃ v n, s.hostRead g =
      { s with
        ghost := { s.ghost with unsetRead := s.ghost.unsetRead || !s.isSet g }
        draws := n
        responses := s.responses ++ [.data v] } := by
  unfold State.hostRead
  dsimp only
  split
  · exact ⟨_, _, rfl⟩
  · exact ⟨_, s.draws, rfl⟩

/-- A read while idle answers the register's value (R65). -/
theorem hostRead_idle (g : Reg) {s : State} (h : s.stat.busy = false) :
    s.hostRead g =
      { s with
        ghost := { s.ghost with unsetRead := s.ghost.unsetRead || !s.isSet g }
        responses := s.responses ++ [.data (s.readReg g)] } := by
  simp [State.hostRead, h]

/-- Everything one access can do (R64, R65). -/
theorem perform_cases (acc : Access) (s : State) :
    (∃ off g, acc = .read off 8 ∧ regAt off = some g ∧ s.perform acc = s.hostRead g) ∨
    (∃ off g v t, acc = .write off 8 v ∧ regAt off = some g ∧ s.writeReg g v = some t ∧
      s.perform acc = t.respond .done) ∨
    s.perform acc = s.busError := by
  cases acc with
  | read off size =>
    cases h : target off size with
    | none => exact .inr (.inr (by simp [State.perform, h]))
    | some g =>
      obtain ⟨rfl, hr⟩ := target_cases h
      exact .inl ⟨off, g, rfl, hr, by simp [State.perform, h]⟩
  | write off size v =>
    cases h : target off size with
    | none => exact .inr (.inr (by simp [State.perform, h]))
    | some g =>
      obtain ⟨rfl, hr⟩ := target_cases h
      cases hw : s.writeReg g v with
      | none => exact .inr (.inr (by simp [State.perform, h, hw]))
      | some t => exact .inr (.inl ⟨off, g, v, t, rfl, hr, hw, by simp [State.perform, h, hw]⟩)

/-- What no input touches but a reset: the results and their marks, CFG (R25, R26, R28, R38, R261). -/
theorem perform_results (acc : Access) (s : State) :
    (s.perform acc).r = s.r ∧ (s.perform acc).x = s.x ∧ (s.perform acc).expo = s.expo ∧
      (s.perform acc).cfg = s.cfg ∧ (s.perform acc).inbox = s.inbox ∧
      (s.perform acc).written.results = s.written.results ∧ (s.perform acc).written.expo = s.written.expo := by
  obtain ⟨off, g, -, -, h⟩ | ⟨off, g, v, t, -, -, hw, h⟩ | h := perform_cases acc s
  · obtain ⟨v, n, hv⟩ := hostRead_eq g s
    rw [h, hv]; exact ⟨rfl, rfl, rfl, rfl, rfl, rfl, rfl⟩
  · rw [h]
    obtain ⟨i, -, rfl⟩ | ⟨i, -, rfl⟩ | ⟨-, rfl⟩ | ⟨-, -, rfl⟩ := writeReg_cases hw <;>
      exact ⟨rfl, rfl, rfl, rfl, rfl, rfl, rfl⟩
  · rw [h]; exact ⟨rfl, rfl, rfl, rfl, rfl, rfl, rfl⟩

/-- What an access does to the command in flight: nothing, or it starts one while idle (R29, R64, R266). -/
theorem perform_command (acc : Access) (s : State) :
    ((s.perform acc).stat = s.stat ∧ (s.perform acc).inFlight = s.inFlight ∧ (s.perform acc).cmd = s.cmd) ∨
    (s.stat.busy = false ∧ ∃ v, (s.perform acc).stat = { s.stat with busy := true } ∧
      (s.perform acc).inFlight = some (s.snapshot (latency s.draws)) ∧ (s.perform acc).cmd = v ∧
      (s.perform acc).ghost.unsetRead = (s.ghost.unsetRead || !(wordReads v).allSet s.written)) := by
  obtain ⟨off, g, -, -, h⟩ | ⟨off, g, v, t, -, -, hw, h⟩ | h := perform_cases acc s
  · obtain ⟨v, n, hv⟩ := hostRead_eq g s
    rw [h, hv]; exact .inl ⟨rfl, rfl, rfl⟩
  · rw [h]
    obtain ⟨i, -, rfl⟩ | ⟨i, -, rfl⟩ | ⟨-, rfl⟩ | ⟨-, hb, rfl⟩ := writeReg_cases hw
    · exact .inl ⟨rfl, rfl, rfl⟩
    · exact .inl ⟨rfl, rfl, rfl⟩
    · exact .inl ⟨rfl, rfl, rfl⟩
    · exact .inr ⟨hb, v, rfl, rfl, rfl, rfl⟩
  · rw [h]; exact .inl ⟨rfl, rfl, rfl⟩

/-- A CMD write while idle starts the command (R29). -/
theorem perform_cmd {s : State} (h : s.stat.busy = false) (v : Word) :
    s.perform (.write 0x90#8 8 v) = (s.start v).respond .done := by
  simp [State.perform, target, regAt, State.writeReg, h]

/-- An access clears nothing of the record (R240). -/
theorem perform_ghost (acc : Access) (s : State) :
    (s.ghost.commandFailed = true → (s.perform acc).ghost.commandFailed = true) ∧
      (s.ghost.unsetRead = true → (s.perform acc).ghost.unsetRead = true) ∧
      (s.ghost.busError = true → (s.perform acc).ghost.busError = true) := by
  obtain ⟨off, g, -, -, h⟩ | ⟨off, g, v, t, -, -, hw, h⟩ | h := perform_cases acc s
  · obtain ⟨v, n, hv⟩ := hostRead_eq g s
    rw [h, hv]; exact ⟨id, fun h => by simp [h], id⟩
  · rw [h]
    obtain ⟨i, -, rfl⟩ | ⟨i, -, rfl⟩ | ⟨-, rfl⟩ | ⟨-, -, rfl⟩ := writeReg_cases hw
    · exact ⟨id, id, id⟩
    · exact ⟨id, id, id⟩
    · exact ⟨id, id, id⟩
    · exact ⟨id, fun h => by simp [h], id⟩
  · rw [h]; exact ⟨id, id, fun _ => rfl⟩

/-- The latency of a command is in [1, LAT_MAX] (R263). -/
theorem latency_range (n : Nat) : 1 ≤ latency n ∧ latency n ≤ Config.latMax := by
  have h : 0 < Config.latMax := by simp [Config.latMax]
  have := Nat.mod_lt (Config.latencyDraw n) h
  simp only [latency]; omega

end Sys2Proof.Machine
end

