-- ==== Sys2Proof/Laws/Step.lean ====
section
/-!
SUPPORT. Everything one step can do (`step_cases`), and the invariant under each of its parts.
-/

namespace Sys2Proof.Machine

/-- Everything a cycle's input can do: nothing, one access, or a reset (R67, R260). -/
theorem receive_cases (s : State) :
    (s.inbox = [] ∧ s.receive = s) ∨
    (∃ rest, s.inbox = .quiet :: rest ∧ s.receive = { s with inbox := rest }) ∨
    (∃ acc rest, s.inbox = .access acc :: rest ∧ s.receive = State.perform acc { s with inbox := rest }) ∨
    (∃ rest, s.inbox = .reset :: rest ∧ s.receive = State.applyReset { s with inbox := rest }) := by
  unfold State.receive
  split
  · exact .inl ⟨‹_›, rfl⟩
  · exact .inr (.inl ⟨_, ‹_›, rfl⟩)
  · exact .inr (.inr (.inl ⟨_, _, ‹_›, rfl⟩))
  · exact .inr (.inr (.inr ⟨_, ‹_›, rfl⟩))

theorem resetNow_iff (s : State) : s.resetNow = true ↔ ∃ rest, s.inbox = .reset :: rest := by
  unfold State.resetNow
  split <;> simp_all

/-- A placed command is not kept from running by a reset. -/
theorem placeCommand_resetNow (v : Word) (s : State) : (s.placeCommand v).resetNow = false := by
  rw [Bool.eq_false_iff, Ne, resetNow_iff, State.placeCommand_inbox]
  rintro ⟨rest, h⟩
  generalize s.inbox = l at h
  induction l with
  | nil => simp at h
  | cons e l ih =>
    rw [List.dropWhile_cons] at h
    split at h
    · exact ih h
    · rename_i he
      injection h with h
      simp [h] at he

theorem due_iff (s : State) : s.due = true ↔ ∃ f, s.inFlight = some f ∧ f.cyclesLeft ≤ 1 := by
  unfold State.due
  split <;> simp_all

/-- Everything one step can do: a reset; the completion of a due command, by its meaning or with ILLEGAL; or a cycle of the
latency and one input. -/
theorem step_cases (s : State) :
    (s.resetNow = true ∧ step s = .next s.receive) ∨
    (s.resetNow = false ∧ s.due = true ∧ ∃ i, decode s.cmd = .ok i ∧ step s = exec i s) ∨
    (s.resetNow = false ∧ s.due = true ∧ ∃ e, decode s.cmd = .error e ∧ step s = .next (s.fail .illegal)) ∨
    (s.resetNow = false ∧ s.due = false ∧ step s = .next s.tick.receive) := by
  unfold step State.cycle
  cases hr : s.resetNow with
  | true => exact .inl ⟨rfl, rfl⟩
  | false =>
    cases hd : s.due with
    | false => exact .inr (.inr (.inr ⟨rfl, rfl, rfl⟩))
    | true =>
      cases hc : decode s.cmd with
      | ok i => exact .inr (.inl ⟨rfl, rfl, i, rfl, by simp⟩)
      | error e => exact .inr (.inr (.inl ⟨rfl, rfl, e, rfl, by simp⟩))

theorem after_zero (s : State) : s.after 0 = .next s := rfl

theorem after_succ {s t : State} (h : step s = .next t) (n : Nat) : s.after (n + 1) = t.after n := by
  simp only [State.after, h]

/-! ## The invariant -/

/-- A cycle of the latency passes: the command is not due yet. -/
theorem tick_inv {s : State} (h : s.Inv) (hd : s.due = false) : s.tick.Inv where
  busy_iff := by
    rw [State.tick_stat, State.tick_inFlight, h.busy_iff]
    cases s.inFlight <;> simp
  latency_in := by
    intro f hf
    cases hs : s.inFlight with
    | none => simp [hs] at hf
    | some g =>
      simp only [State.tick_inFlight, hs, Option.map_some, Option.some.injEq] at hf
      subst hf
      have := h.latency_in g hs
      have : ¬ g.cyclesLeft ≤ 1 := fun hc => by
        have := (due_iff s).2 ⟨g, hs, hc⟩
        simp [hd] at this
      dsimp only; omega
  digit := h.digit
  bare := h.bare
  noted := by
    intro f hf
    cases hs : s.inFlight with
    | none => simp [hs] at hf
    | some g =>
      simp only [State.tick_inFlight, hs, Option.map_some, Option.some.injEq] at hf
      subst hf
      exact h.noted g hs
  exponent := h.exponent
  zero := h.zero

theorem setInbox_inv {s : State} (h : s.Inv) (l : List Input) : ({ s with inbox := l } : State).Inv :=
  ⟨h.busy_iff, h.latency_in, h.digit, h.bare, h.noted, h.exponent, h.zero⟩

/-- An access keeps the invariant (R64, R65). -/
theorem perform_inv {s : State} (h : s.Inv) (acc : Access) : (s.perform acc).Inv := by
  obtain ⟨hr, -, he, -, -, hw, hm⟩ := perform_results acc s
  obtain ⟨hs, hf, hc⟩ | ⟨hb, v, hs, hf, hc, hg⟩ := perform_command acc s
  · exact
      { busy_iff := by rw [hs, hf]; exact h.busy_iff
        latency_in := by rw [hf]; exact h.latency_in
        digit := by rw [hs]; exact h.digit
        bare := by rw [hs]; exact h.bare
        noted := by
          rw [hf, hc]
          exact fun f hf hr => (perform_ghost acc s).2.1 (h.noted f hf hr)
        exponent := by rw [he, hm]; exact h.exponent
        zero := by rw [hs, hr, hw]; exact h.zero }
  · exact
      { busy_iff := by rw [hs, hf]; simp
        latency_in := by
          rw [hf]
          intro f hf
          injection hf with hf
          subst hf
          exact latency_range _
        digit := by rw [hs]; exact h.digit
        bare := by rw [hs]; exact h.bare
        noted := by
          rw [hf, hc, hg]
          intro f hf hr
          injection hf with hf
          subst hf
          have hr : (wordReads v).allSet s.written = false := hr
          simp [hr]
        exponent := by rw [he, hm]; exact h.exponent
        zero := by rw [hs, hr, hw]; exact h.zero }

/-- A reset leaves a state of the invariant whatever came before (R260). -/
theorem applyReset_inv (s : State) : s.applyReset.Inv where
  busy_iff := by simp [Status.idle]
  latency_in := by intro f hf; simp at hf
  digit := by simp [Status.idle]
  bare := by intro hc; exact absurd rfl hc
  noted := by intro f hf; simp at hf
  exponent := by intro hc; simp [Written.none] at hc
  zero := by intro hc; simp [Written.none] at hc

theorem receive_inv {s : State} (h : s.Inv) : s.receive.Inv := by
  obtain ⟨-, hr⟩ | ⟨l, -, hr⟩ | ⟨acc, l, -, hr⟩ | ⟨l, -, hr⟩ := receive_cases s <;> rw [hr]
  · exact h
  · exact setInbox_inv h l
  · exact perform_inv (setInbox_inv h l) acc
  · exact applyReset_inv _

/-- A failed command leaves a state of the invariant (R231). -/
theorem fail_inv {s : State} (h : s.Inv) (e : CommandError) : (s.fail e).Inv where
  busy_iff := by simp
  latency_in := by intro f hf; simp at hf
  digit := by simp
  bare := by intro _; exact ⟨rfl, rfl, rfl, rfl, rfl⟩
  noted := by intro f hf; simp at hf
  exponent := h.exponent
  zero := by intro _ hc; simp at hc

/-- A command that succeeds leaves a state of the invariant (R25, R30, R33, R208). -/
theorem succeed_inv {s : State} (h : s.Inv) {res : Result} (hok : OutcomeOk (.ok res)) : (s.succeed res).Inv where
  busy_iff := by simp
  latency_in := by intro f hf; simp at hf
  digit := by
    have := (hok res rfl).1
    simp only [State.succeed_stat, Status.succeeded_rd, BitVec.toNat_ofNat]; omega
  bare := by intro hc; simp at hc
  noted := by intro f hf; simp at hf
  exponent := by
    have he := (hok res rfl).2
    simp only [State.succeed_expo, State.succeed_written]
    cases hx : res.expo with
    | none => simpa using h.exponent
    | some e =>
      have := he e hx
      simp only [BitVec.toNat_ofInt]; omega
  zero := by intro _ _; simp

theorem finish_inv {s : State} (h : s.Inv) {out : Except CommandError Result} (hok : OutcomeOk out) : (s.finish out).Inv := by
  cases out with
  | ok res => exact succeed_inv h hok
  | error e => exact fail_inv h e

end Sys2Proof.Machine
end

