-- ==== Sys2Proof/Tests/Slice0.lean ====
section
/-!
SUPPORT. The model's own tests. Every expected word and value is the spec's: the opcode table, the examples of R97 and the test
vectors V-* of the section files, named in each comment. The `witness_` theorems show a state and operands that meet the
hypotheses of the statement they are named after.
-/

namespace Sys2Proof.Tests

open Sys2Proof.Machine

/-! ## Decoding: every row of the opcode table (R80 to R92) -/

/-- A command word from its fields, most significant first, as R81 lays them out: reserved, TIN, SGN, RM, K, W, OPC. -/
def commandWord (tin : BitVec 2) (sgn : BitVec 1) (rm : BitVec 3) (k : BitVec 6) (w : BitVec 2) (opc : BitVec 8) : Word :=
  0#42 ++ tin ++ sgn ++ rm ++ k ++ w ++ opc

/-- ADD, its fields written out (R81, R89). -/
theorem test_fields_add :
    decode (commandWord 0b00#2 0b0#1 0b000#3 0b000000#6 0b01#2 0x01#8) = .ok .add_128 := by
  decide

/-- SUB, its fields written out (R81, R89). -/
theorem test_fields_sub :
    decode (commandWord 0b00#2 0b0#1 0b000#3 0b000000#6 0b10#2 0x02#8) = .ok .sub_192 := by
  decide

/-- NEG, its fields written out (R81, R89). -/
theorem test_fields_neg :
    decode (commandWord 0b00#2 0b0#1 0b000#3 0b000000#6 0b11#2 0x03#8) = .ok .neg_256 := by
  decide

/-- MUL, its fields written out (R81, R89). -/
theorem test_fields_mul :
    decode (commandWord 0b00#2 0b0#1 0b000#3 0b000000#6 0b01#2 0x10#8) = .ok .mul_128 := by
  decide

/-- MUL64, its fields written out (R81, R89). -/
theorem test_fields_mul64 :
    decode (commandWord 0b00#2 0b0#1 0b000#3 0b000000#6 0b10#2 0x11#8) = .ok .mul64_192 := by
  decide

/-- MULP10, its fields written out (R81, R89). -/
theorem test_fields_mulp10 :
    decode (commandWord 0b00#2 0b0#1 0b000#3 0b100110#6 0b11#2 0x12#8) = .ok .mulp10_256_38 := by
  decide

/-- DIV, its fields written out (R81, R89). -/
theorem test_fields_div :
    decode (commandWord 0b00#2 0b0#1 0b000#3 0b000000#6 0b01#2 0x20#8) = .ok .div_128 := by
  decide

/-- DIVP10, its fields written out (R81, R89). -/
theorem test_fields_divp10 :
    decode (commandWord 0b00#2 0b0#1 0b000#3 0b010011#6 0b10#2 0x21#8) = .ok .divp10_192_19 := by
  decide

/-- LSH, its fields written out (R81, R89). -/
theorem test_fields_lsh :
    decode (commandWord 0b00#2 0b0#1 0b000#3 0b000000#6 0b11#2 0x30#8) = .ok .lsh_256 := by
  decide

/-- RSH, its fields written out (R81, R89). -/
theorem test_fields_rsh :
    decode (commandWord 0b00#2 0b0#1 0b000#3 0b000000#6 0b01#2 0x31#8) = .ok .rsh_128 := by
  decide

/-- LZC, its fields written out (R81, R89). -/
theorem test_fields_lzc :
    decode (commandWord 0b00#2 0b0#1 0b000#3 0b000000#6 0b10#2 0x38#8) = .ok .lzc_192 := by
  decide

/-- LOG10, its fields written out (R81, R89). -/
theorem test_fields_log10 :
    decode (commandWord 0b00#2 0b0#1 0b000#3 0b000000#6 0b01#2 0x39#8) = .ok .log10_128 := by
  decide

/-- REDUCE, its fields written out (R81, R89). -/
theorem test_fields_reduce :
    decode (commandWord 0b10#2 0b1#1 0b101#3 0b000000#6 0b10#2 0x40#8) = .ok (.reduce_192 5#3 true 2#2) := by
  decide

/-- ADD: the words of the opcode table, both ways. -/
theorem test_words_add :
    decode 0x0000000000000101#64 = .ok .add_128 ∧ encode .add_128 = 0x0000000000000101#64 ∧
    decode 0x0000000000000201#64 = .ok .add_192 ∧ encode .add_192 = 0x0000000000000201#64 ∧
    decode 0x0000000000000301#64 = .ok .add_256 ∧ encode .add_256 = 0x0000000000000301#64 := by
  decide

/-- SUB: the words of the opcode table, both ways. -/
theorem test_words_sub :
    decode 0x0000000000000102#64 = .ok .sub_128 ∧ encode .sub_128 = 0x0000000000000102#64 ∧
    decode 0x0000000000000202#64 = .ok .sub_192 ∧ encode .sub_192 = 0x0000000000000202#64 ∧
    decode 0x0000000000000302#64 = .ok .sub_256 ∧ encode .sub_256 = 0x0000000000000302#64 := by
  decide

/-- NEG: the words of the opcode table, both ways. -/
theorem test_words_neg :
    decode 0x0000000000000103#64 = .ok .neg_128 ∧ encode .neg_128 = 0x0000000000000103#64 ∧
    decode 0x0000000000000203#64 = .ok .neg_192 ∧ encode .neg_192 = 0x0000000000000203#64 ∧
    decode 0x0000000000000303#64 = .ok .neg_256 ∧ encode .neg_256 = 0x0000000000000303#64 := by
  decide

/-- MUL: the words of the opcode table, both ways. -/
theorem test_words_mul :
    decode 0x0000000000000110#64 = .ok .mul_128 ∧ encode .mul_128 = 0x0000000000000110#64 ∧
    decode 0x0000000000000210#64 = .ok .mul_192 ∧ encode .mul_192 = 0x0000000000000210#64 ∧
    decode 0x0000000000000310#64 = .ok .mul_256 ∧ encode .mul_256 = 0x0000000000000310#64 := by
  decide

/-- MUL64: the words of the opcode table, both ways. -/
theorem test_words_mul64 :
    decode 0x0000000000000111#64 = .ok .mul64_128 ∧ encode .mul64_128 = 0x0000000000000111#64 ∧
    decode 0x0000000000000211#64 = .ok .mul64_192 ∧ encode .mul64_192 = 0x0000000000000211#64 ∧
    decode 0x0000000000000311#64 = .ok .mul64_256 ∧ encode .mul64_256 = 0x0000000000000311#64 := by
  decide

/-- MULP10: the words of the opcode table, both ways. -/
theorem test_words_mulp10 :
    decode 0x0000000000000512#64 = .ok .mulp10_128_1 ∧ encode .mulp10_128_1 = 0x0000000000000512#64 ∧
    decode 0x0000000000000912#64 = .ok .mulp10_128_2 ∧ encode .mulp10_128_2 = 0x0000000000000912#64 ∧
    decode 0x0000000000000D12#64 = .ok .mulp10_128_3 ∧ encode .mulp10_128_3 = 0x0000000000000D12#64 ∧
    decode 0x0000000000001112#64 = .ok .mulp10_128_4 ∧ encode .mulp10_128_4 = 0x0000000000001112#64 ∧
    decode 0x0000000000002112#64 = .ok .mulp10_128_8 ∧ encode .mulp10_128_8 = 0x0000000000002112#64 ∧
    decode 0x0000000000004D12#64 = .ok .mulp10_128_19 ∧ encode .mulp10_128_19 = 0x0000000000004D12#64 ∧
    decode 0x0000000000009912#64 = .ok .mulp10_128_38 ∧ encode .mulp10_128_38 = 0x0000000000009912#64 ∧
    decode 0x0000000000000612#64 = .ok .mulp10_192_1 ∧ encode .mulp10_192_1 = 0x0000000000000612#64 ∧
    decode 0x0000000000000A12#64 = .ok .mulp10_192_2 ∧ encode .mulp10_192_2 = 0x0000000000000A12#64 ∧
    decode 0x0000000000000E12#64 = .ok .mulp10_192_3 ∧ encode .mulp10_192_3 = 0x0000000000000E12#64 ∧
    decode 0x0000000000001212#64 = .ok .mulp10_192_4 ∧ encode .mulp10_192_4 = 0x0000000000001212#64 ∧
    decode 0x0000000000002212#64 = .ok .mulp10_192_8 ∧ encode .mulp10_192_8 = 0x0000000000002212#64 ∧
    decode 0x0000000000004E12#64 = .ok .mulp10_192_19 ∧ encode .mulp10_192_19 = 0x0000000000004E12#64 ∧
    decode 0x0000000000009A12#64 = .ok .mulp10_192_38 ∧ encode .mulp10_192_38 = 0x0000000000009A12#64 ∧
    decode 0x0000000000000712#64 = .ok .mulp10_256_1 ∧ encode .mulp10_256_1 = 0x0000000000000712#64 ∧
    decode 0x0000000000000B12#64 = .ok .mulp10_256_2 ∧ encode .mulp10_256_2 = 0x0000000000000B12#64 ∧
    decode 0x0000000000000F12#64 = .ok .mulp10_256_3 ∧ encode .mulp10_256_3 = 0x0000000000000F12#64 ∧
    decode 0x0000000000001312#64 = .ok .mulp10_256_4 ∧ encode .mulp10_256_4 = 0x0000000000001312#64 ∧
    decode 0x0000000000002312#64 = .ok .mulp10_256_8 ∧ encode .mulp10_256_8 = 0x0000000000002312#64 ∧
    decode 0x0000000000004F12#64 = .ok .mulp10_256_19 ∧ encode .mulp10_256_19 = 0x0000000000004F12#64 ∧
    decode 0x0000000000009B12#64 = .ok .mulp10_256_38 ∧ encode .mulp10_256_38 = 0x0000000000009B12#64 := by
  decide

/-- DIV: the words of the opcode table, both ways. -/
theorem test_words_div :
    decode 0x0000000000000120#64 = .ok .div_128 ∧ encode .div_128 = 0x0000000000000120#64 ∧
    decode 0x0000000000000220#64 = .ok .div_192 ∧ encode .div_192 = 0x0000000000000220#64 ∧
    decode 0x0000000000000320#64 = .ok .div_256 ∧ encode .div_256 = 0x0000000000000320#64 := by
  decide

/-- DIVP10: the words of the opcode table, both ways. -/
theorem test_words_divp10 :
    decode 0x0000000000000521#64 = .ok .divp10_128_1 ∧ encode .divp10_128_1 = 0x0000000000000521#64 ∧
    decode 0x0000000000000D21#64 = .ok .divp10_128_3 ∧ encode .divp10_128_3 = 0x0000000000000D21#64 ∧
    decode 0x0000000000001121#64 = .ok .divp10_128_4 ∧ encode .divp10_128_4 = 0x0000000000001121#64 ∧
    decode 0x0000000000002121#64 = .ok .divp10_128_8 ∧ encode .divp10_128_8 = 0x0000000000002121#64 ∧
    decode 0x0000000000004D21#64 = .ok .divp10_128_19 ∧ encode .divp10_128_19 = 0x0000000000004D21#64 ∧
    decode 0x0000000000000621#64 = .ok .divp10_192_1 ∧ encode .divp10_192_1 = 0x0000000000000621#64 ∧
    decode 0x0000000000000E21#64 = .ok .divp10_192_3 ∧ encode .divp10_192_3 = 0x0000000000000E21#64 ∧
    decode 0x0000000000001221#64 = .ok .divp10_192_4 ∧ encode .divp10_192_4 = 0x0000000000001221#64 ∧
    decode 0x0000000000002221#64 = .ok .divp10_192_8 ∧ encode .divp10_192_8 = 0x0000000000002221#64 ∧
    decode 0x0000000000004E21#64 = .ok .divp10_192_19 ∧ encode .divp10_192_19 = 0x0000000000004E21#64 ∧
    decode 0x0000000000000721#64 = .ok .divp10_256_1 ∧ encode .divp10_256_1 = 0x0000000000000721#64 ∧
    decode 0x0000000000000F21#64 = .ok .divp10_256_3 ∧ encode .divp10_256_3 = 0x0000000000000F21#64 ∧
    decode 0x0000000000001321#64 = .ok .divp10_256_4 ∧ encode .divp10_256_4 = 0x0000000000001321#64 ∧
    decode 0x0000000000002321#64 = .ok .divp10_256_8 ∧ encode .divp10_256_8 = 0x0000000000002321#64 ∧
    decode 0x0000000000004F21#64 = .ok .divp10_256_19 ∧ encode .divp10_256_19 = 0x0000000000004F21#64 := by
  decide

/-- LSH: the words of the opcode table, both ways. -/
theorem test_words_lsh :
    decode 0x0000000000000130#64 = .ok .lsh_128 ∧ encode .lsh_128 = 0x0000000000000130#64 ∧
    decode 0x0000000000000230#64 = .ok .lsh_192 ∧ encode .lsh_192 = 0x0000000000000230#64 ∧
    decode 0x0000000000000330#64 = .ok .lsh_256 ∧ encode .lsh_256 = 0x0000000000000330#64 := by
  decide

/-- RSH: the words of the opcode table, both ways. -/
theorem test_words_rsh :
    decode 0x0000000000000131#64 = .ok .rsh_128 ∧ encode .rsh_128 = 0x0000000000000131#64 ∧
    decode 0x0000000000000231#64 = .ok .rsh_192 ∧ encode .rsh_192 = 0x0000000000000231#64 ∧
    decode 0x0000000000000331#64 = .ok .rsh_256 ∧ encode .rsh_256 = 0x0000000000000331#64 := by
  decide

/-- LZC: the words of the opcode table, both ways. -/
theorem test_words_lzc :
    decode 0x0000000000000138#64 = .ok .lzc_128 ∧ encode .lzc_128 = 0x0000000000000138#64 ∧
    decode 0x0000000000000238#64 = .ok .lzc_192 ∧ encode .lzc_192 = 0x0000000000000238#64 ∧
    decode 0x0000000000000338#64 = .ok .lzc_256 ∧ encode .lzc_256 = 0x0000000000000338#64 := by
  decide

/-- LOG10: the words of the opcode table, both ways. -/
theorem test_words_log10 :
    decode 0x0000000000000139#64 = .ok .log10_128 ∧ encode .log10_128 = 0x0000000000000139#64 := by
  decide

/-- REDUCE: the words of the opcode table, both ways. -/
theorem test_words_reduce :
    decode 0x0000000000000140#64 = .ok (.reduce_128 0#3 false 0#2) ∧ encode (.reduce_128 0#3 false 0#2) = 0x0000000000000140#64 ∧
    decode 0x0000000000000240#64 = .ok (.reduce_192 0#3 false 0#2) ∧ encode (.reduce_192 0#3 false 0#2) = 0x0000000000000240#64 ∧
    decode 0x0000000000000340#64 = .ok (.reduce_256 0#3 false 0#2) ∧ encode (.reduce_256 0#3 false 0#2) = 0x0000000000000340#64 := by
  decide

/-- REDUCE: RM, SGN and TIN at every value that is legal, by the fields' places (R81). -/
theorem test_words_reduce_fields :
    ∀ rm : Fin 7, ∀ sgn : Fin 2, ∀ tin : Fin 3,
      decode (BitVec.ofNat 64 (0x340 + rm.val * 2 ^ 16 + sgn.val * 2 ^ 19 + tin.val * 2 ^ 20)) =
        .ok (.reduce_256 (BitVec.ofNat 3 rm.val) (sgn.val == 1) (BitVec.ofNat 2 tin.val)) := by
  decide

/-- The illegal words: reserved bits (R90), a reserved opcode (R89), width 0 and LOG10 of another width (R92), unused fields
(R91), factors off the lists (R93), RM = 7 and TIN = 0b11 (R84, R86). -/
theorem test_illegal_words :
    decode 0x0000000000400101#64 = .error .reservedBits ∧ decode 0x8000000000000101#64 = .error .reservedBits ∧
    decode 0x0000000000000100#64 = .error .opcode ∧ decode 0x0000000000000104#64 = .error .opcode ∧
    decode 0x0000000000000001#64 = .error .width ∧ decode 0x0000000000000239#64 = .error .log10Width ∧
    decode 0x0000000000000501#64 = .error .unusedField ∧ decode 0x0000000000010101#64 = .error .unusedField ∧
    decode 0x0000000000000112#64 = .error .factor ∧ decode 0x0000000000000921#64 = .error .factor ∧
    decode 0x0000000000070140#64 = .error .rounding ∧ decode 0x0000000000300140#64 = .error .truncation ∧
    decode 0#64 = .error .opcode := by
  decide

/-- A word given with its number of bits decodes as itself. -/
theorem test_decodeTableWord :
    decodeTableWord 64 0x4D12 = some .mulp10_128_19 ∧ decodeTableWord 64 0x40000000000101 = none := by
  decide

/-! ## Well-formedness: an ill-formed term for each check -/

/-- RM = 7 (R84). -/
theorem test_illFormed_rm :
    (Instr.reduce_128 7#3 false 0#2).wellFormed = false ∧ (Instr.reduce_192 7#3 true 1#2).wellFormed = false ∧
      (Instr.reduce_256 7#3 false 2#2).wellFormed = false := by
  decide

/-- TIN = 0b11 (R86). -/
theorem test_illFormed_tin :
    (Instr.reduce_128 0#3 false 3#2).wellFormed = false ∧ (Instr.reduce_192 6#3 true 3#2).wellFormed = false ∧
      (Instr.reduce_256 5#3 false 3#2).wellFormed = false := by
  decide

/-! ## One step of a command on the spec's test vectors -/

/-- An idle unit with the operands A, B and EXPI, 77 and 99 in R and X, and the default mode NearestEven. -/
def testState (a b e : Nat) : State :=
  { State.reset with
    a := Limbs.ofNat a, b := Limbs.ofNat b, expi := BitVec.ofNat 64 e, r := Limbs.ofNat 77, x := Limbs.ofNat 99
    cfg := ⟨.ne⟩ }

/-- That state in the last busy cycle of the command word `w`. -/
def placed (w a b e : Nat) : State := (testState a b e).withFetchWord 64 w

/-- The snapshot of that command. -/
def taken (a b e : Nat) : InFlight := (testState a b e).snapshot 1

/-- The next state of an answer. -/
def nextOf (o : Answer) : State :=
  match o with
  | .next t => t
  | .fault _ => State.reset
  | .refused _ => State.reset

/-- The step that completes the word `w` leaves these numbers in R, X, STAT and EXPO. -/
def leaves (w a b e r x stat expo : Nat) : Bool :=
  match step (placed w a b e) with
  | .next t => t.r.toNat == r && t.x.toNat == x && t.stat.toWord.toNat == stat && t.expo.toNat == expo
  | .fault _ => false
  | .refused _ => false

/-- V-ADD-3. -/
theorem test_add_3 :
    leaves 0x101 340282366920938463463374607431768211455 340282366920938463463374607431768211455 0 680564733841876926926749214863536422910 0 2 0 = true := by
  decide

/-- V-ADD-4. -/
theorem test_add_4 :
    leaves 0x201 6277101735386680763835789423207666416102355444464034512895 1 0 6277101735386680763835789423207666416102355444464034512896 0 2 0 = true := by
  decide

/-- V-ADD-6. -/
theorem test_add_6 :
    leaves 0x301 115792089237316195423570985008687907853269984665640564039457584007913129639935 1 0 0 1 6 0 = true := by
  decide

/-- V-ADD-7. -/
theorem test_add_7 :
    leaves 0x101 2381976568446569244243622252022377480197 56493915618480126874522104808868997744921199000176310616065 0 6 0 0 0 = true := by
  decide

/-- V-SUB-2. -/
theorem test_sub_2 :
    leaves 0x102 3 5 0 340282366920938463463374607431768211454 0 2 0 = true := by
  decide

/-- V-SUB-3. -/
theorem test_sub_3 :
    leaves 0x102 7 7 0 0 0 4 0 = true := by
  decide

/-- V-SUB-4. -/
theorem test_sub_4 :
    leaves 0x202 0 1 0 6277101735386680763835789423207666416102355444464034512895 0 2 0 = true := by
  decide

/-- V-SUB-6. -/
theorem test_sub_6 :
    leaves 0x302 57896044618658097711785492504343953926634992332820282019728792003956564819968 115792089237316195423570985008687907853269984665640564039457584007913129639935 0 57896044618658097711785492504343953926634992332820282019728792003956564819969 0 2 0 = true := by
  decide

/-- V-NEG-1. -/
theorem test_neg_1 :
    leaves 0x103 0 0 0 0 0 4 0 = true := by
  decide

/-- V-NEG-3. -/
theorem test_neg_3 :
    leaves 0x103 170141183460469231731687303715884105728 0 0 170141183460469231731687303715884105728 0 2 0 = true := by
  decide

/-- V-NEG-2. -/
theorem test_neg_2 :
    leaves 0x203 1 0 0 6277101735386680763835789423207666416102355444464034512895 0 2 0 = true := by
  decide

/-- V-MUL-2. -/
theorem test_mul_2 :
    leaves 0x110 340282366920938463463374607431768211455 340282366920938463463374607431768211455 0 115792089237316195423570985008687907852589419931798687112530834793049593217025 0 0 0 = true := by
  decide

/-- V-MUL-3. -/
theorem test_mul_3 :
    leaves 0x310 115792089237316195423570985008687907853269984665640564039457584007913129639935 115792089237316195423570985008687907853269984665640564039457584007913129639935 0 1 115792089237316195423570985008687907853269984665640564039457584007913129639934 0 0 = true := by
  decide

/-- V-MUL-4. -/
theorem test_mul_4 :
    leaves 0x310 340282366920938463463374607431768211456 340282366920938463463374607431768211456 0 0 1 4 0 = true := by
  decide

/-- V-MUL-5. -/
theorem test_mul_5 :
    leaves 0x210 0 6277101735386680763835789423207666416102355444464034512895 0 0 0 4 0 = true := by
  decide

/-- V-MUL64-1. -/
theorem test_mul64_1 :
    leaves 0x111 340282366920938463463374607431768211455 2 0 680564733841876926926749214863536422910 0 0 0 = true := by
  decide

/-- V-MUL64-2. -/
theorem test_mul64_2 :
    leaves 0x311 115792089237316195423570985008687907853269984665640564039457584007913129639935 110680464442257309695 0 115792089237316195423570985008687907853269984665640564039439137263839420088321 18446744073709551614 0 0 = true := by
  decide

/-- V-MULP10-1. -/
theorem test_mulp10_1 :
    leaves 0x512 3 0 0 30 0 0 0 = true := by
  decide

/-- V-MULP10-2. -/
theorem test_mulp10_2 :
    leaves 0x9912 9999999999999999999999999999999999 0 0 999999999999999999999999999999999900000000000000000000000000000000000000 0 0 0 = true := by
  decide

/-- V-MULP10-3. -/
theorem test_mulp10_3 :
    leaves 0x4F12 115792089237316195423570985008687907853269984665640564039457584007913129639935 0 0 115792089237316195423570985008687907853269984665640564039447584007913129639936 9999999999999999999 0 0 = true := by
  decide

/-- V-MULP10-4. -/
theorem test_mulp10_4 :
    leaves 0x2212 12345 0 0 1234500000000 0 0 0 = true := by
  decide

/-- V-DIV-1. -/
theorem test_div_1 :
    leaves 0x120 170141183460469231731687303715884105728 3 0 56713727820156410577229101238628035242 2 0 0 = true := by
  decide

/-- V-DIV-3. -/
theorem test_div_3 :
    leaves 0x120 1 0 0 77 99 512 0 = true := by
  decide

/-- V-DIV-4. -/
theorem test_div_4 :
    leaves 0x220 5 9 0 0 5 4 0 = true := by
  decide

/-- V-DIV-5. -/
theorem test_div_5 :
    leaves 0x320 115792089237316195423570985008687907853269984665640564039457584007913129639935 10000000000000000000 0 11579208923731619542357098500868790785326998466564056403945 7584007913129639935 0 0 = true := by
  decide

/-- V-DIV-6. -/
theorem test_div_6 :
    leaves 0x320 115792089237316195423570985008687907853269984665640564039457584007913129639935 6277101735386680763835789423207666416102355444464034512897 0 18446744073709551615 6277101735386680763835789423207666416083908700390324961280 0 0 = true := by
  decide

/-- V-DIVP10-1. -/
theorem test_divp10_1 :
    leaves 0x521 123456 0 0 12345 6 0 0 = true := by
  decide

/-- V-DIVP10-2. -/
theorem test_divp10_2 :
    leaves 0x4D21 340282366920938463463374607431768211455 0 0 34028236692093846346 3374607431768211455 0 0 = true := by
  decide

/-- V-DIVP10-3. -/
theorem test_divp10_3 :
    leaves 0x4E21 10000000000000000000 0 0 1 0 0 0 = true := by
  decide

/-- V-DIVP10-4. -/
theorem test_divp10_4 :
    leaves 0xD21 999 0 0 0 999 4 0 = true := by
  decide

/-- V-DIVP10-5. -/
theorem test_divp10_5 :
    leaves 0x1321 10000000000000000000000000000000000001234 0 0 1000000000000000000000000000000000000 1234 0 0 = true := by
  decide

/-- V-LSH-2. -/
theorem test_lsh_2 :
    leaves 0x130 3 127 0 170141183460469231731687303715884105728 0 0 0 = true := by
  decide

/-- V-LSH-3. -/
theorem test_lsh_3 :
    leaves 0x130 1 128 0 0 0 4 0 = true := by
  decide

/-- V-LSH-4. -/
theorem test_lsh_4 :
    leaves 0x330 1 18446744073709551615 0 0 0 4 0 = true := by
  decide

/-- V-LSH-5. -/
theorem test_lsh_5 :
    leaves 0x230 5 0 0 5 0 0 0 = true := by
  decide

/-- V-RSH-1. -/
theorem test_rsh_1 :
    leaves 0x331 57896044618658097711785492504343953926634992332820282019728792003956564819968 255 0 1 0 0 0 = true := by
  decide

/-- V-RSH-2. -/
theorem test_rsh_2 :
    leaves 0x131 340282366920938463463374607431768211455 64 0 18446744073709551615 0 0 0 = true := by
  decide

/-- V-RSH-3. -/
theorem test_rsh_3 :
    leaves 0x231 3138550867693340381917894711603833208051177722232017256448 192 0 0 0 4 0 = true := by
  decide

/-- V-LZC-1. -/
theorem test_lzc_1 :
    leaves 0x138 0 0 0 128 0 0 0 = true := by
  decide

/-- V-LZC-3. -/
theorem test_lzc_3 :
    leaves 0x138 10000000000000000000000000000000000 0 0 15 0 0 0 = true := by
  decide

/-- V-LZC-2. -/
theorem test_lzc_2 :
    leaves 0x338 1 0 0 255 0 0 0 = true := by
  decide

/-- V-LZC-4. -/
theorem test_lzc_4 :
    leaves 0x238 3138550867693340381917894711603833208051177722232017256448 0 0 0 0 4 0 = true := by
  decide

/-- V-LOG10-1. -/
theorem test_log10_1 :
    leaves 0x139 0 0 0 77 99 768 0 = true := by
  decide

/-- V-LOG10-5. -/
theorem test_log10_5 :
    leaves 0x139 100000000000000000000000000000000000000 0 0 38 0 0 0 = true := by
  decide

/-- V-RED-5. -/
theorem test_reduce_5 :
    leaves 0x340 99999999999999999999999999999999995 0 0 1000000000000000000000000000000000 0 20480 2 = true := by
  decide

/-- V-RED-22. -/
theorem test_reduce_22 :
    leaves 0x10340 5 0 65535 0 0 20484 6176 = true := by
  decide

/-- V-RED-4 at the width 128, which holds its significand: the width only selects the limbs S is read from (R190). -/
theorem test_reduce_4 :
    leaves 0x200140 10000000000000000000000000000000035 0 100 1000000000000000000000000000000004 0 20512 101 = true := by
  decide

/-- V-RED-20 at the width 128, which holds its significand: the width only selects the limbs S is read from (R190). -/
theorem test_reduce_20 :
    leaves 0x140 123 0 12290 123000 0 0 12287 = true := by
  decide

/-- V-RED-10 at the width 192, which holds its significand: the width only selects the limbs S is read from (R190). -/
theorem test_reduce_10 :
    leaves 0x220240 1000000000000000000000000000000000 0 7 999999999999999999999999999999999 0 32 7 = true := by
  decide

/-- V-RED-19 at the width 192, which holds its significand: the width only selects the limbs S is read from (R190). -/
theorem test_reduce_19 :
    leaves 0x240 9999999999999999999999999999999999 0 12292 9999999999999999999999999999999999 0 8 12292 = true := by
  decide

/-! ## The host's side, one step each -/

/-- R62, R65: a read of A1 while idle answers it. -/
theorem test_read_idle :
    ((testState (2 ^ 64 * 5) 0 0).perform (.read 0x08#8 8)).responses = [.data 5#64] := by
  decide

/-- R64: a read of 4 bytes, a misaligned one, one of a reserved offset, and writes to R0, EXPO, STAT and CFG are bus errors. -/
theorem test_bus_errors :
    [Access.read 0x00#8 4, .read 0x04#8 8, .read 0xA8#8 8, .write 0x40#8 8 1#64, .write 0x88#8 8 1#64, .write 0x98#8 8 1#64,
        .write 0xA0#8 8 1#64].all
      (fun acc => ((testState 1 2 3).perform acc).responses == [.busError]) = true := by
  decide

/-- R31, R39: a write to A while a command is busy changes A, not the command. -/
theorem test_write_while_busy :
    let t := (placed 0x101 2 3 0).perform (.write 0x00#8 8 9#64)
    t.a.l0 = 9#64 ∧ (nextOf (step t)).r.l0 = 5#64 := by
  decide

/-- R67, R65, R29: a step takes one access: a write of A1, then a CMD write, then a read of A1 while the command is busy. -/
theorem test_step_takes_accesses :
    let s : State := { testState 1 2 3 with
      inbox := [.access (.write 0x08#8 8 7#64), .access (.write 0x90#8 8 0x101#64), .access (.read 0x08#8 8)] }
    let t := nextOf (step s)
    let u := nextOf (step t)
    t.a.l1 = 7#64 ∧ t.responses = [.done] ∧ t.inbox.length = 2 ∧ u.cmd = 0x101#64 ∧ u.stat.busy = true ∧
      u.responses = [.done, .done] ∧ u.inbox = [.access (.read 0x08#8 8)] := by
  decide

/-- R87, R88, R232: the codes. -/
theorem test_codes :
    [Rounding.ne, .na, .tz, .az, .tn, .tp].map roundingCode = [0#3, 1#3, 2#3, 3#3, 4#3, 5#3] ∧
      [Trunc.ex, .hi, .lo].map truncCode = [0#2, 1#2, 2#2] ∧
      [none, some CommandError.illegal, some .divZero, some .domain].map errCode = [0#4, 1#4, 2#4, 3#4] := by
  decide

/-- R23, R261: a write of A1 marks A1 as set and no other limb. -/
theorem test_write_marks_one_limb :
    ((testState 1 2 3).perform (.write 0x08#8 8 7#64)).written =
      { Written.none with a := ⟨false, true, false, false⟩ } := by
  decide

/-- R30: STAT's fields at their bits. -/
theorem test_status_word :
    (Status.toWord ⟨true, false, true, false, .lo, some .domain, 9#4⟩) = 0x9325#64 := by
  decide

/-- R261: a command that succeeds sets R and X, only REDUCE sets EXPO, and one that fails sets nothing. -/
theorem test_results_set :
    (nextOf (step (placed 0x101 2 3 0))).written = { Written.none with results := true } ∧
      (nextOf (step (placed 0x340 2 3 0))).written = { Written.none with results := true, expo := true } ∧
      (nextOf (step (placed 0x120 2 0 0))).written = Written.none := by
  decide

/-- V-RST-6: ADD.128 with A0 and A1 written and B0 and B1 not is recorded at the CMD write, and a reset leaves the record. -/
theorem test_unset_operand_abandoned :
    let s := placed 0x101 2 3 0
    s.ghost.unsetRead = true ∧ (nextOf (step { s with inbox := [.reset] })).ghost.unsetRead = true := by
  decide

/-- R261: with every operand written before it, ADD.128 leaves no record; an illegal word reads nothing. -/
theorem test_set_operands :
    let s : State := { testState 2 3 0 with
      written := { Written.none with a := ⟨true, true, false, false⟩, b := ⟨true, true, false, false⟩ } }
    (s.withFetchWord 64 0x101).ghost.unsetRead = false ∧ (s.withFetchWord 64 0x201).ghost.unsetRead = true ∧
      ((testState 2 3 0).withFetchWord 64 0).ghost.unsetRead = false := by
  decide

/-- R98: MOV A, R is eight accesses, EXEC is CMD and WAIT. -/
theorem test_host_expansion :
    (HostStmt.mov .a .r).expand.length = 8 ∧
      (HostStmt.exec .add_128).expand = [.write .cmd (.const 0x101) 0, .read .status .stat, .loopIfBusy] := by
  decide

/-! ## Witnesses: a state and operands that meet the hypotheses of each statement -/

/-- With a command in flight a meaning answers a next state. -/
theorem exec_answers {s : State} {f : InFlight} (h : s.inFlight = some f) (i : Instr) : exec i s = .next (nextOf (exec i s)) := by
  obtain ⟨hn, -⟩ | ⟨f, out, -, -, he⟩ := exec_cases i s
  · rw [h] at hn; cases hn
  · rw [he]; rfl

/-- The answer is a next state. -/
def isNext (o : Answer) : Bool :=
  match o with
  | .next _ => true
  | .fault _ => false
  | .refused _ => false

theorem eq_next {o : Answer} (h : isNext o = true) : o = .next (nextOf o) := by
  cases o with
  | next t => rfl
  | fault _ => cases h
  | refused _ => cases h

theorem witness_EncodeThenDecode : (Instr.reduce_128 6#3 true 2#2).wellFormed = true := rfl

theorem witness_DecodeThenEncode : decode 0x0000000000004D12#64 = .ok .mulp10_128_19 := by decide

theorem witness_StepRunsTheDecodedCommand :
    (placed 0x101 2 3 0).inFlight = some (taken 2 3 0) ∧ (taken 2 3 0).cyclesLeft ≤ 1 ∧
      (placed 0x101 2 3 0).resetNow = false ∧ decode (placed 0x101 2 3 0).cmd = .ok .add_128 := by
  decide

/-- Its other clauses: an idle unit with each input first, and a busy one with two cycles to go. -/
theorem witness_StepRunsTheDecodedCommand_inputs :
    let busy : State := (testState 1 2 3).begin 0x101#64 2
    (∀ f, (testState 1 2 3).inFlight = some f → 1 < f.cyclesLeft) ∧ (∀ f, busy.inFlight = some f → 1 < f.cyclesLeft) ∧
      (testState 1 2 3).inbox = [] ∧ State.inbox { busy with inbox := [.quiet] } = .quiet :: [] ∧
      State.inbox { busy with inbox := [.access (.read 0x98#8 8), .reset] } = .access (.read 0x98#8 8) :: [.reset] := by
  refine ⟨fun f h => ?_, fun f h => ?_, rfl, rfl, rfl⟩
  · cases h
  · injection h with h
    subst h
    decide

theorem witness_IllegalWordFailsWithIllegal :
    (placed 0x100 2 3 0).inFlight = some (taken 2 3 0) ∧ (taken 2 3 0).cyclesLeft ≤ 1 ∧
      (placed 0x100 2 3 0).resetNow = false ∧ decode (placed 0x100 2 3 0).cmd = .error .opcode := by
  decide

theorem witness_PlacedCommandRunsNext : Instr.wellFormed .log10_128 = true := rfl

theorem witness_AddCompletesWithTheWidenedSum :
    (placed 0x101 (2 ^ 128 - 1) 1 0).inFlight = some (taken (2 ^ 128 - 1) 1 0) := by
  decide

/-- A negative difference, and one that is 0. -/
theorem witness_SubCompletesWithTheDifference :
    (placed 0x102 3 5 0).inFlight = some (taken 3 5 0) ∧ (taken 3 5 0).a.low .w128 < (taken 3 5 0).b.low .w128 ∧
      (placed 0x102 7 7 0).inFlight = some (taken 7 7 0) ∧ ¬ (taken 7 7 0).a.low .w128 < (taken 7 7 0).b.low .w128 := by
  decide

/-- The number 0, and 1. -/
theorem witness_NegCompletesWithTheTwosComplement :
    (placed 0x103 0 0 0).inFlight = some (taken 0 0 0) ∧ (taken 0 0 0).a.low .w128 = 0 ∧
      (placed 0x103 1 0 0).inFlight = some (taken 1 0 0) ∧ (taken 1 0 0).a.low .w128 ≠ 0 := by
  decide

/-- SUB.128 of 3 and 5, of 5 and 3, and NEG.128 of the second difference. -/
theorem witness_SubIsTheNegationOfTheSwappedSub :
    let s := placed 0x102 3 5 0
    let s' := placed 0x102 5 3 0
    let u := placed 0x103 2 0 0
    s.inFlight = some (taken 3 5 0) ∧ s'.inFlight = some (taken 5 3 0) ∧ (taken 5 3 0).a = (taken 3 5 0).b ∧
      (taken 5 3 0).b = (taken 3 5 0).a ∧ exec (.sub .w128) s = .next (nextOf (exec (.sub .w128) s)) ∧
      exec (.sub .w128) s' = .next (nextOf (exec (.sub .w128) s')) ∧ u.inFlight = some (taken 2 0 0) ∧
      (taken 2 0 0).a = (nextOf (exec (.sub .w128) s')).r ∧
      exec (.neg .w128) u = .next (nextOf (exec (.neg .w128) u)) :=
  ⟨rfl, rfl, rfl, rfl, rfl, rfl, rfl, by decide, rfl⟩

theorem witness_MulCompletesWithTheProduct : (placed 0x310 (2 ^ 255) 2 0).inFlight = some (taken (2 ^ 255) 2 0) := by decide

theorem witness_MulByOneLimbCompletesWithTheProduct :
    (placed 0x311 (2 ^ 255) 2 0).inFlight = some (taken (2 ^ 255) 2 0) := by
  decide

theorem witness_MulByPowerOfTenCompletesWithTheProduct :
    (placed 0x9B12 (2 ^ 255) 0 0).inFlight = some (taken (2 ^ 255) 0 0) := by
  decide

theorem witness_DivCompletesWithQuotientAndRemainder :
    (placed 0x120 7 2 0).inFlight = some (taken 7 2 0) ∧ (taken 7 2 0).b.low .w128 ≠ 0 := by
  decide

/-- The limbs above the width may be set: B is 2^128. -/
theorem witness_DivByZeroFails :
    (placed 0x120 7 (2 ^ 128) 0).inFlight = some (taken 7 (2 ^ 128) 0) ∧ (taken 7 (2 ^ 128) 0).b.low .w128 = 0 := by
  decide

theorem witness_DivByPowerOfTenCompletes : (placed 0x4F21 (2 ^ 255) 0 0).inFlight = some (taken (2 ^ 255) 0 0) := by decide

theorem witness_LeftShiftCompletes : (placed 0x130 1 128 0).inFlight = some (taken 1 128 0) := by decide

theorem witness_RightShiftCompletes : (placed 0x131 1 128 0).inFlight = some (taken 1 128 0) := by decide

/-- The number 0, and 1. -/
theorem witness_LeadingZeroCountCompletes :
    (placed 0x138 0 0 0).inFlight = some (taken 0 0 0) ∧ (placed 0x138 1 0 0).inFlight = some (taken 1 0 0) := by
  decide

theorem witness_DecimalLogarithmCompletes :
    (placed 0x139 (2 ^ 128 - 1) 0 0).inFlight = some (taken (2 ^ 128 - 1) 0 0) ∧
      (taken (2 ^ 128 - 1) 0 0).a.low .w128 ≠ 0 := by
  decide

theorem witness_DecimalLogarithmOfZeroFails :
    (placed 0x139 (2 ^ 128) 0 0).inFlight = some (taken (2 ^ 128) 0 0) ∧ (taken (2 ^ 128) 0 0).a.low .w128 = 0 := by
  decide

/-- LSH.128 of 3 by 127, and RSH.128 of what it leaves. -/
theorem witness_RightShiftUndoesLeftShift :
    let s := placed 0x130 3 127 0
    let u := placed 0x131 (2 ^ 127) 127 0
    s.inFlight = some (taken 3 127 0) ∧ (taken 3 127 0).b.l0.toNat < bits .w128 ∧
      exec (.lsh .w128) s = .next (nextOf (exec (.lsh .w128) s)) ∧ u.inFlight = some (taken (2 ^ 127) 127 0) ∧
      (taken (2 ^ 127) 127 0).a = (nextOf (exec (.lsh .w128) s)).r ∧ (taken (2 ^ 127) 127 0).b.l0 = (taken 3 127 0).b.l0 ∧
      exec (.rsh .w128) u = .next (nextOf (exec (.rsh .w128) u)) :=
  ⟨rfl, by decide, rfl, rfl, by decide, rfl, rfl⟩

/-- Each clause of the table at its edge: the tie to odd and to even, the digit 5 and 4, DOWN and not DOWN, AWAY and not. -/
theorem witness_RoundingDecisionTable :
    roundInc .ne false 5 .ex 1 = 1 ∧ roundInc .ne false 5 .ex 2 = 0 ∧ roundInc .ne false 5 .hi 2 = 1 ∧
      roundInc .ne false 6 .ex 2 = 1 ∧ roundInc .na false 5 .ex 2 = 1 ∧ roundInc .na false 4 .hi 2 = 0 ∧
      roundInc .tz false 0 .lo 1 = -1 ∧ roundInc .tz false 0 .lo 0 = 0 ∧ roundInc .tz false 9 .hi 1 = 0 ∧
      roundInc .az false 0 .hi 1 = 1 ∧ roundInc .az false 1 .ex 1 = 1 ∧ roundInc .az false 0 .lo 1 = 0 ∧
      roundInc .tn true 1 .ex 1 = 1 ∧ roundInc .tn false 0 .lo 1 = -1 ∧ roundInc .tp false 1 .ex 1 = 1 ∧
      roundInc .tp true 0 .lo 1 = -1 := by
  decide

/-- Nothing discarded; the clamp; the rounding carry (V-RED-5): all three meet the hypotheses. -/
theorem witness_ReduceCompletesAsItsPseudocode :
    roundingOf 0#3 (placed 0x340 5 0 0).cfg.defMode = some .ne ∧ truncOf 0#2 = some .ex ∧
      (placed 0x340 5 0 0).inFlight = some (taken 5 0 0) ∧ (placed 0x340 5 0 65535).inFlight = some (taken 5 0 65535) ∧
      (placed 0x340 99999999999999999999999999999999995 0 0).inFlight =
        some (taken 99999999999999999999999999999999995 0 0) := by
  decide

theorem witness_IllegalReduceFails :
    (placed 0x70140 5 0 0).inFlight = some (taken 5 0 0) ∧ ((7#3 : BitVec 3) = 7#3 ∨ (0#2 : BitVec 2) = 3#2) ∧
      ((0#3 : BitVec 3) = 7#3 ∨ (3#2 : BitVec 2) = 3#2) := by
  decide

/-- V-RED-25, where EXPO exceeds EMAX. -/
theorem witness_ReduceOutputInvariants :
    let s := placed 0x340 (2 ^ 256 - 1) 0 32767
    exec (.reduce .w256 0#3 false 0#2) s = .next (nextOf (exec (.reduce .w256 0#3 false 0#2) s)) ∧
      (nextOf (exec (.reduce .w256 0#3 false 0#2) s)).stat.err = none :=
  ⟨rfl, rfl⟩

/-- The greatest significand at both ends of the exponent's range. -/
theorem witness_ReduceOfAnExactValueIsExact :
    (placed 0x340 (10 ^ 34 - 1) 0 0).inFlight = some (taken (10 ^ 34 - 1) 0 0) ∧
      roundingOf 0#3 (placed 0x340 (10 ^ 34 - 1) 0 0).cfg.defMode = some .ne ∧
      (taken (10 ^ 34 - 1) 0 0).a.low .w256 ≤ 10 ^ 34 - 1 ∧ 0 ≤ (taken (10 ^ 34 - 1) 0 0).expi.toInt ∧
      (taken (10 ^ 34 - 1) 0 12287).expi.toInt ≤ 12287 := by
  decide

/-- The exponents −1, 0, 12287 and 12288. -/
theorem witness_ReduceOfZero :
    roundingOf 6#3 (placed 0x60340 0 0 0).cfg.defMode = some .ne ∧ (taken 0 0 0).a.low .w256 = 0 ∧
      (placed 0x60340 0 0 65535).inFlight = some (taken 0 0 65535) ∧ (taken 0 0 65535).expi.toInt = -1 ∧
      (placed 0x60340 0 0 0).inFlight = some (taken 0 0 0) ∧
      (placed 0x60340 0 0 12287).inFlight = some (taken 0 0 12287) ∧
      (placed 0x60340 0 0 12288).inFlight = some (taken 0 0 12288) := by
  decide

theorem witness_HeadroomClosedFormIsTheLoop :
    (123 : Nat) < 10 ^ 34 ∧ ((12290 : Int) - 12287).toNat ≤ 3 ∧ headroom 123 12290 = (123000, 12287) ∧
      headroomLoop 3 123 12290 = (123000, 12287) := by
  decide

/-- The tie of V-RED-1: one digit over the precision at the exponent 100, under each mode and sign. -/
theorem witness_ReduceRoundsCorrectlyFromAnExactValue :
    let sig := 10000000000000000000000000000000025
    let s := placed 0x340 sig 0 100
    s.inFlight = some (taken sig 0 100) ∧ (taken sig 0 100).a.low .w256 = sig ∧ ndig sig - 34 = 1 ∧
      (∀ m ∈ [Rounding.ne, .na, .tz, .az, .tn, .tp], roundingOf (roundingCode m) s.cfg.defMode = some m) ∧
      (0 - ((taken sig 0 100).expi.toInt + 1)).toNat = 0 ∧ (taken sig 0 100).expi.toInt + 1 + 0 ≤ 12287 ∧
      ∀ rm sgn, exec (.reduce .w256 rm sgn 0#2) s = .next (nextOf (exec (.reduce .w256 rm sgn 0#2) s)) :=
  ⟨by decide, by decide, by decide, by decide, by decide, by decide, fun _ _ => exec_answers rfl _⟩

/-- The exponent above EMAX, and a significand of 34 digits (V-RED-19): step 3 does not turn. -/
theorem witness_ReduceRoundsCorrectlyFromAnExactValue_full :
    let s := placed 0x340 (10 ^ 34 - 1) 0 12292
    s.inFlight = some (taken (10 ^ 34 - 1) 0 12292) ∧ roundingOf 0#3 s.cfg.defMode = some .ne ∧
      ndig (10 ^ 34 - 1) - 34 = 0 ∧ ¬ (taken (10 ^ 34 - 1) 0 12292).expi.toInt ≤ 12287 ∧
      10 ^ 33 ≤ (taken (10 ^ 34 - 1) 0 12292).a.low .w256 / 10 ^ 0 ∧
      exec (.reduce .w256 0#3 false 0#2) s = .next (nextOf (exec (.reduce .w256 0#3 false 0#2) s)) :=
  ⟨rfl, rfl, by decide, by decide, by decide, exec_answers rfl _⟩

theorem witness_CommandsLeaveOperandsAndEndBusy :
    exec .add_128 (placed 0x101 2 3 0) = .next (nextOf (exec .add_128 (placed 0x101 2 3 0))) := rfl

theorem witness_OnlyReduceWritesExpo :
    exec .add_128 (placed 0x101 2 3 0) = .next (nextOf (exec .add_128 (placed 0x101 2 3 0))) ∧
      Instr.add_128.fields.op ≠ .reduce :=
  ⟨rfl, by decide⟩

/-- DIV by zero, and an illegal word. -/
theorem witness_FailedCommandsWriteOnlyStat :
    (placed 0x120 1 0 0).inFlight = some (taken 1 0 0) ∧ (taken 1 0 0).cyclesLeft ≤ 1 ∧
      (placed 0x120 1 0 0).resetNow = false ∧
      step (placed 0x120 1 0 0) = .next (nextOf (step (placed 0x120 1 0 0))) ∧
      (nextOf (step (placed 0x120 1 0 0))).stat.err = some .divZero ∧
      (nextOf (step (placed 0 1 0 0))).stat.err = some .illegal :=
  ⟨rfl, by decide, rfl, eq_next (by decide), by decide, by decide⟩

/-- MUL.256 of 2^128 and 2^128 (V-MUL-4): R is 0 and X is not. -/
theorem witness_ZeroFlagReadsTheResultOnly :
    let s := placed 0x310 (2 ^ 128) (2 ^ 128) 0
    s.inFlight = some (taken (2 ^ 128) (2 ^ 128) 0) ∧ (taken (2 ^ 128) (2 ^ 128) 0).cyclesLeft ≤ 1 ∧
      s.resetNow = false ∧ step s = .next (nextOf (step s)) ∧ (nextOf (step s)).stat.z = true ∧
      (nextOf (step s)).x.l0 = 1#64 :=
  ⟨rfl, by decide, rfl, eq_next (by decide), by decide, by decide⟩

/-- DIV by zero, and LOG10 of zero. -/
theorem witness_OnlyDivAndLogarithmCanFail :
    Instr.div_128.wellFormed = true ∧ (placed 0x120 1 0 0).inFlight = some (taken 1 0 0) ∧
      (nextOf (exec .div_128 (placed 0x120 1 0 0))).stat.err = some .divZero ∧ Instr.log10_128.wellFormed = true ∧
      (placed 0x139 0 0 0).inFlight = some (taken 0 0 0) ∧
      (nextOf (exec .log10_128 (placed 0x139 0 0 0))).stat.err = some .domain := by
  decide

/-- Two states that agree on the command in flight and on CFG, not on A. -/
theorem witness_CommandsComputeFromTheSnapshot :
    let s := placed 0x101 2 3 0
    let u := s.perform (.write 0x00#8 8 9#64)
    s.inFlight = u.inFlight ∧ s.cfg = u.cfg ∧ s.a ≠ u.a ∧ exec .add_128 s = .next (nextOf (exec .add_128 s)) ∧
      exec .add_128 u = .next (nextOf (exec .add_128 u)) :=
  ⟨by decide, by decide, by decide, rfl, rfl⟩

/-- Two operands of ADD.128 that differ at bit 128. -/
theorem witness_LimbsAboveTheWidthAreIgnored :
    let s := placed 0x101 5 3 0
    let u := placed 0x101 (2 ^ 128 + 5) 3 0
    s.inFlight = some (taken 5 3 0) ∧ u.inFlight = some (taken (2 ^ 128 + 5) 3 0) ∧ s.cfg = u.cfg ∧
      (taken 5 3 0).expi = (taken (2 ^ 128 + 5) 3 0).expi ∧ (taken 5 3 0).a ≠ (taken (2 ^ 128 + 5) 3 0).a ∧
      (taken 5 3 0).a.toNat % 2 ^ bits .w128 = (taken (2 ^ 128 + 5) 3 0).a.toNat % 2 ^ bits .w128 ∧
      (taken 5 3 0).b.toNat % 2 ^ bits .w128 = (taken (2 ^ 128 + 5) 3 0).b.toNat % 2 ^ bits .w128 ∧
      exec .add_128 s = .next (nextOf (exec .add_128 s)) ∧ exec .add_128 u = .next (nextOf (exec .add_128 u)) :=
  ⟨rfl, rfl, rfl, rfl, by decide, by decide, by decide, rfl, rfl⟩

/-- A legal word and an illegal one on an idle unit; B0 of a shift that nothing has set. -/
theorem witness_UnsetOperandsAreRecorded :
    Instr.lsh_128.wellFormed = true ∧ (testState 1 2 0).stat.busy = false ∧ (testState 1 2 0).written.b.get 0 = false ∧
      decode 0x100#64 = .error .opcode := by
  decide

/-- Each refused access at the edge of its range: a size of 4, offsets 0x01, 0xA8, 0x40, 0x7F, 0x88, 0x98, 0xA0, and CMD while
busy. -/
theorem witness_BusErrorsChangeNothing :
    ((4 : Nat) ≠ 8) ∧ (0x01#8).toNat % 8 ≠ 0 ∧ 0xA8 ≤ (0xA8#8).toNat ∧
      (0x40 ≤ (0x40#8).toNat ∧ (0x40#8).toNat < 0x80) ∧ (0x78#8).toNat < 0x80 ∧ (0x88#8).toNat = 0x88 ∧
      (0x98#8).toNat = 0x98 ∧ (0xA0#8).toNat = 0xA0 ∧
      ((0x90#8).toNat = 0x90 ∧ (placed 0x101 2 3 0).stat.busy = true) := by
  decide

theorem witness_IdleReadAnswersTheRegister : (testState 1 2 3).stat.busy = false := rfl

theorem witness_BusyReads : (placed 0x101 2 3 0).stat.busy = true := rfl

theorem witness_OperandWritesAreStored :
    ((∃ i, Reg.a 3 = .a i) ∨ (∃ i, Reg.a 3 = .b i) ∨ Reg.a 3 = .expi) ∧
      ((∃ i, Reg.b 0 = .a i) ∨ (∃ i, Reg.b 0 = .b i) ∨ Reg.b 0 = .expi) ∧
      ((∃ i, Reg.expi = .a i) ∨ (∃ i, Reg.expi = .b i) ∨ Reg.expi = .expi) :=
  ⟨.inl ⟨3, rfl⟩, .inr (.inl ⟨0, rfl⟩), .inr (.inr rfl)⟩

theorem witness_CommandWriteStartsACommand : (testState 1 2 3).stat.busy = false := rfl

theorem witness_CfgNeverChanges : step (testState 1 2 3) = .next (testState 1 2 3) := rfl

theorem witness_HostCommandStatementStartsThatCommand :
    (testState 1 2 3).stat.busy = false ∧ (Instr.reduce_256 6#3 false 0#2).wellFormed = true := by
  decide

/-- A reset presented in the cycle in which a command would complete. -/
theorem witness_ResetAbandonsTheCommand :
    State.resetNow { placed 0x101 2 3 0 with inbox := [.reset] } = true := rfl

/-- The invariant holds of a state with a command in flight. -/
theorem placed_inv : State.Inv { State.reset.placeCommand 0x101#64 with cfg := ⟨.ne⟩ } where
  busy_iff := by simp
  latency_in := by
    intro f hf
    obtain rfl : f = State.reset.snapshot 1 := by simpa using hf.symm
    exact ⟨le_rfl, Nat.le_add_left 1 Config.latMaxLessOne⟩
  digit := by decide
  bare := fun h => absurd rfl h
  noted := fun _ _ _ => by decide
  exponent := by decide
  zero := by decide

theorem witness_EveryStepKeepsTheInvariant :
    State.Inv { State.reset.placeCommand 0x101#64 with cfg := ⟨.ne⟩ } ∧
      step { State.reset.placeCommand 0x101#64 with cfg := ⟨.ne⟩ } =
        .next (nextOf (step { State.reset.placeCommand 0x101#64 with cfg := ⟨.ne⟩ })) :=
  ⟨placed_inv, rfl⟩

theorem witness_EveryCommandCompletesWithinItsLatency :
    let s : State := { State.reset.placeCommand 0x101#64 with cfg := ⟨.ne⟩ }
    s.Inv ∧ s.inFlight = some (State.reset.snapshot 1) ∧ ∀ e ∈ s.inbox, e ≠ Input.reset :=
  ⟨placed_inv, rfl, fun _ h => nomatch h⟩

/-- A quiet step of an idle unit with everything recorded. -/
theorem witness_TheRecordIsSticky :
    let s : State := { testState 1 2 3 with ghost := ⟨true, true, true⟩ }
    step s = .next s ∧ s.ghost.commandFailed = true ∧ s.ghost.unsetRead = true ∧ s.ghost.busError = true :=
  ⟨rfl, rfl, rfl, rfl⟩

/-- ADD.128 on unset operands, with a reset presented in its cycle of completion (V-RST-6 asks for the record of B0 and B1). -/
theorem witness_UnsetOperandsStayRecordedThroughAReset :
    let s : State := { State.reset.placeCommand 0x101#64 with cfg := ⟨.ne⟩, inbox := [.reset] }
    s.Inv ∧ s.inFlight = some (State.reset.snapshot 1) ∧ (wordReads s.cmd).allSet (State.reset.snapshot 1).written = false ∧
      step s = .next (nextOf (step s)) :=
  ⟨⟨placed_inv.busy_iff, placed_inv.latency_in, placed_inv.digit, placed_inv.bare, placed_inv.noted, placed_inv.exponent,
    placed_inv.zero⟩, rfl, by decide, eq_next (by decide)⟩

theorem witness_ResultsChangeOnlyAtCompletion :
    step (testState 1 2 3) = .next (testState 1 2 3) ∧ (testState 1 2 3).due = false ∧
      (testState 1 2 3).resetNow = false :=
  ⟨rfl, rfl, rfl⟩

end Sys2Proof.Tests
end

section
/-!
Proofs for 10_state.md: what a command computes from, what a completion and a waiting cycle change, the invariant, and the
bounded time of a command.
-/

namespace Sys2Proof

/-! ## The word of a legal command decodes to it (R95, R97) -/

@[simp] theorem Op.ofCode_code (op : Op) : Op.ofCode op.code = some op := by cases op <;> rfl

@[simp] theorem Width.ofCode_code (w : Width) : Width.ofCode w.code = some w := by cases w <;> rfl

/-- A command passes the checks on its own fields: R91 to R93 by construction, R84 and R86 by well-formedness. -/
theorem checkFields_fields {i : Instr} (h : i.wellFormed = true) :
    checkFields i.fields.op i.fields.w i.fields.k i.fields.rm i.fields.sgn i.fields.tin = .ok i := by
  cases i
  case reduce_128 | reduce_192 | reduce_256 =>
    simp only [Instr.wellFormed, legalRm, legalTin, Bool.and_eq_true, bne_iff_ne] at h
    simp [checkFields, reduceCommand, Instr.fields, Instr.reduce, h]
  all_goals rfl

theorem decode_encode {i : Instr} (h : i.wellFormed = true) : decode (encode i) = .ok i := by
  obtain ⟨hopc, hw, hk, hrm, hsgn, htin, hres⟩ := i.fields.word_fields
  simp [decode, encode, hopc, hw, hk, hrm, hsgn, htin, hres, checkFields_fields h]

end Sys2Proof

namespace Sys2Proof.Machine

/-! ## The outcome of a command, by its fields and operands -/

/-- B0 by B_W: the lowest limb is in every width (R24). -/
theorem Limbs.first_eq_low_mod (w : Width) (g : Limbs) : g.first = g.low w % 2 ^ 64 := by
  have h := g.l0.isLt
  cases w <;> simp only [Limbs.first, Limbs.low, Limbs.toNat] <;> omega

/-- The outcome of the command with the fields `c` on A_W = `a`, B_W = `b` and EXPI[15:0] = `e`, the default mode being `g`:
all that a command depends on (R39, R82, R210). `exec_eq_outcome` ties it to the meanings. -/
def commandOutcome (c : Fields) (g : Rounding) (a b : Nat) (e : BitVec 16) : Except CommandError Result :=
  match c.op with
  | .add => .ok (addResult c.w a b)
  | .sub => .ok (subResult c.w a b)
  | .neg => .ok (negResult c.w a)
  | .mul => .ok (productResult a b)
  | .mul64 => .ok (productResult a (b % 2 ^ 64))
  | .mulp10 => .ok (productResult a (10 ^ c.k.toNat))
  | .div => divOutcome a b
  | .divp10 => .ok (quotientResult a (10 ^ c.k.toNat))
  | .lsh => .ok (lshResult c.w a (b % 2 ^ 64))
  | .rsh => .ok (rshResult c.w a (b % 2 ^ 64))
  | .lzc => .ok (lzcResult c.w a)
  | .log10 => log10Outcome a
  | .reduce =>
    match roundingOf c.rm g, truncOf c.tin with
    | some m, some t => .ok (reduceResult a (exponentIn e) m c.sgn t)
    | none, _ => .error .illegal
    | some _, none => .error .illegal

/-- The outcome of an instruction on a snapshot. -/
def InFlight.outcome (f : InFlight) (i : Instr) (g : Rounding) : Except CommandError Result :=
  commandOutcome i.fields g (f.a.low i.fields.w) (f.b.low i.fields.w) f.expi

/-- Every meaning is the outcome of its fields under the common frame (R110). -/
theorem exec_eq_outcome (i : Instr) (s : State) :
    exec i s = runCommand (fun f => f.outcome i s.cfg.defMode) s := by
  cases i
  case mul64_128 | mul64_192 | mul64_256 | lsh_128 | lsh_192 | lsh_256 | rsh_128 | rsh_192 | rsh_256 =>
    simp only [InFlight.outcome, commandOutcome, Instr.fields, ← Limbs.first_eq_low_mod]
    rfl
  case reduce_128 rm sgn tin | reduce_192 rm sgn tin | reduce_256 rm sgn tin =>
    simp only [exec, execReduce_128, execReduce_192, execReduce_256, runReduce, runIllegal, InFlight.outcome,
      commandOutcome, Instr.fields]
    cases roundingOf rm s.cfg.defMode <;> cases truncOf tin <;> rfl
  all_goals rfl

/-- The next state of a command is its end with the outcome on the snapshot (R39, R110). -/
theorem exec_next {i : Instr} {s t : State} (h : exec i s = .next t) :
    ∃ f, s.inFlight = some f ∧ t = s.finish (f.outcome i s.cfg.defMode) :=
  runCommand_cases (exec_eq_outcome i s ▸ h)

theorem reduceResult_expo_isSome (sig : Nat) (e : Int) (m : Rounding) (sgn : Bool) (tin : Trunc) :
    (reduceResult sig e m sgn tin).expo.isSome = true := by
  unfold reduceResult
  dsimp only
  split <;> rfl

/-- REDUCE alone gives an exponent, and always does (R28). -/
theorem InFlight.outcome_expo {f : InFlight} {i : Instr} {g : Rounding} {res : Result} (h : f.outcome i g = .ok res) :
    res.expo.isSome = true ↔ i.fields.op = .reduce := by
  unfold InFlight.outcome commandOutcome at h
  cases hop : i.fields.op <;> simp only [hop] at h
  case div =>
    unfold divOutcome at h
    split at h <;> cases h
    simp [quotientResult]
  case log10 =>
    unfold log10Outcome at h
    split at h <;> cases h
    simp
  case reduce =>
    split at h <;> cases h
    simp [reduceResult_expo_isSome]
  all_goals
    cases h
    simp [addResult, subResult, negResult, productResult, quotientResult, lshResult, rshResult, lzcResult]

/-! ## What the end of a command changes -/

/-- R23, R24, R27, R29, R38: the end of a command writes no operand, neither CMD nor CFG. -/
theorem finish_sameInputs (out : Except CommandError Result) (s : State) : s.SameInputs (s.finish out) := by
  cases out <;> constructor <;> rfl

@[simp] theorem finish_busy (out : Except CommandError Result) (s : State) : (s.finish out).stat.busy = false := by
  cases out <;> rfl

@[simp] theorem finish_inFlight (out : Except CommandError Result) (s : State) : (s.finish out).inFlight = none := by
  cases out <;> rfl

theorem finish_commandFailed (out : Except CommandError Result) {s : State} (h : s.ghost.commandFailed = true) :
    (s.finish out).ghost.commandFailed = true := by
  cases out
  case ok => exact h
  case error => rfl

/-- An outcome with no exponent leaves EXPO and its mark (R28). -/
theorem finish_expo_of_none {out : Except CommandError Result} (h : ∀ res, out = .ok res → res.expo = none) (s : State) :
    (s.finish out).expo = s.expo ∧ (s.finish out).written.expo = s.written.expo := by
  cases out with
  | ok res => simp [h res rfl]
  | error e => exact ⟨rfl, rfl⟩

/-- What one outcome leaves in two states: the same STAT and, where it is a success, the same R, X and exponent (R40). -/
theorem finish_agree (out : Except CommandError Result) (s u : State) :
    (s.finish out).stat = (u.finish out).stat ∧
      ((s.finish out).stat.err = none → (s.finish out).r = (u.finish out).r ∧ (s.finish out).x = (u.finish out).x ∧
        ((∀ res, out = .ok res → res.expo.isSome = true) → (s.finish out).expo = (u.finish out).expo)) := by
  cases out with
  | ok res =>
    refine ⟨rfl, fun _ => ⟨rfl, rfl, fun h => ?_⟩⟩
    obtain ⟨e, he⟩ := Option.isSome_iff_exists.1 (h res rfl)
    simp [he]
  | error e => exact ⟨rfl, fun h => by cases h⟩

theorem Limbs.isZero_iff_limbs (g : Limbs) :
    g.isZero = true ↔ g.l0 = 0#64 ∧ g.l1 = 0#64 ∧ g.l2 = 0#64 ∧ g.l3 = 0#64 := by
  simp [Limbs.isZero, and_assoc]

/-- Z at the end of a command (R33). -/
theorem finish_zeroFlag (out : Except CommandError Result) (s : State) :
    (s.finish out).stat.z = true ↔ (s.finish out).stat.err = none ∧ (s.finish out).r.isZero = true := by
  cases out <;> simp

/-- Two commands of one instruction whose snapshots give one outcome end alike (R39, R82, R210). -/
theorem exec_agree {i : Instr} {s u t v : State} {f g : InFlight} (hf : s.inFlight = some f) (hg : u.inFlight = some g)
    (hcfg : s.cfg = u.cfg) (hout : f.outcome i u.cfg.defMode = g.outcome i u.cfg.defMode)
    (ht : exec i s = .next t) (hv : exec i u = .next v) :
    t.stat = v.stat ∧ (t.stat.err = none → t.r = v.r ∧ t.x = v.x ∧ (i.fields.op = .reduce → t.expo = v.expo)) := by
  obtain ⟨f', hf', rfl⟩ := exec_next ht
  obtain ⟨g', hg', rfl⟩ := exec_next hv
  obtain rfl : f = f' := Option.some.inj (hf.symm.trans hf')
  obtain rfl : g = g' := Option.some.inj (hg.symm.trans hg')
  rw [hcfg, hout]
  obtain ⟨hstat, hres⟩ := finish_agree (g.outcome i u.cfg.defMode) s u
  refine ⟨hstat, fun herr => ?_⟩
  obtain ⟨hr, hx, hexpo⟩ := hres herr
  exact ⟨hr, hx, fun hop => hexpo fun res hok => (InFlight.outcome_expo hok).2 hop⟩

/-! ## Steps -/

/-- A reset is taken at once (R260). -/
theorem step_of_reset {s : State} (hr : s.resetNow = true) : step s = .next s.receive := by
  simp [step, State.cycle, hr]

/-- A step that completes a legal command is its meaning (R31, R39). -/
theorem step_of_due {s : State} {i : Instr} (hd : s.due = true) (hr : s.resetNow = false) (hc : decode s.cmd = .ok i) :
    step s = exec i s := by
  simp [step, State.cycle, hd, hr, hc]

/-- A step in which no command completes and no reset comes lets a cycle pass and takes the first input (R31, R67). -/
theorem step_of_waiting {s : State} (hd : s.due = false) (hr : s.resetNow = false) : step s = .next s.tick.receive := by
  simp [step, State.cycle, hd, hr]

/-- Every step that completes a command, an illegal word included, ends it with an outcome (R31, R233). -/
theorem step_completes {s : State} (hd : s.due = true) (hr : s.resetNow = false) :
    ∃ out, OutcomeOk out ∧ step s = .next (s.finish out) := by
  obtain ⟨f, hf, -⟩ := (due_iff s).1 hd
  obtain ⟨hr', -⟩ | ⟨-, -, i, -, hs⟩ | ⟨-, -, e, -, hs⟩ | ⟨-, hd', -⟩ := step_cases s
  · cases hr.symm.trans hr'
  · obtain ⟨hn, -⟩ | ⟨f, out, -, hok, he⟩ := exec_cases i s
    · cases hn.symm.trans hf
    · exact ⟨out, hok, hs.trans he⟩
  · exact ⟨.error .illegal, outcomeOk_error _, hs⟩
  · cases hd.symm.trans hd'

/-- Everything a step can do: a reset, the end of a due command, or a cycle of the latency and one input. -/
theorem step_next_cases {s t : State} (h : step s = .next t) :
    (s.resetNow = true ∧ t = s.receive) ∨
    (s.resetNow = false ∧ s.due = true ∧ ∃ out, OutcomeOk out ∧ t = s.finish out) ∨
    (s.resetNow = false ∧ s.due = false ∧ t = s.tick.receive) := by
  cases hr : s.resetNow with
  | true => exact .inl ⟨rfl, by simpa [step_of_reset hr] using h.symm⟩
  | false =>
    cases hd : s.due with
    | true =>
      obtain ⟨out, hok, hs⟩ := step_completes hd hr
      exact .inr (.inl ⟨rfl, rfl, out, hok, by simpa [hs] using h.symm⟩)
    | false => exact .inr (.inr ⟨rfl, rfl, by simpa [step_of_waiting hd hr] using h.symm⟩)

theorem due_of_cyclesLeft_le {s : State} {f : InFlight} (hf : s.inFlight = some f) (h : f.cyclesLeft ≤ 1) : s.due = true :=
  (due_iff s).2 ⟨f, hf, h⟩

theorem not_due_of_lt_cyclesLeft {s : State} (h : ∀ f, s.inFlight = some f → 1 < f.cyclesLeft) : s.due = false := by
  rw [Bool.eq_false_iff, Ne, due_iff]
  rintro ⟨f, hf, hle⟩
  exact absurd (h f hf) (by omega)

/-- The word of a placed command, given as a number (R80). -/
theorem withFetchWord_toNat (v : Word) (s : State) : s.withFetchWord 64 v.toNat = s.placeCommand v := by
  rw [State.withFetchWord, Nat.mod_eq_of_lt v.isLt, BitVec.ofNat_toNat, BitVec.setWidth_eq]

/-! ## Inputs -/

@[simp] theorem tick_resetNow (s : State) : s.tick.resetNow = s.resetNow := rfl

@[simp] theorem receive_cfg (s : State) : s.receive.cfg = s.cfg := by
  obtain ⟨-, h⟩ | ⟨l, -, h⟩ | ⟨acc, l, -, h⟩ | ⟨l, -, h⟩ := receive_cases s <;> rw [h]
  · obtain ⟨-, -, -, hcfg, -⟩ := perform_results acc { s with inbox := l }
    exact hcfg
  · rfl

/-- A cycle takes the first input (R67). -/
theorem receive_inbox (s : State) : s.receive.inbox = s.inbox.tail := by
  obtain ⟨hi, h⟩ | ⟨l, hi, h⟩ | ⟨acc, l, hi, h⟩ | ⟨l, hi, h⟩ := receive_cases s <;> rw [h, hi]
  · rfl
  · rfl
  · obtain ⟨-, -, -, -, hin, -⟩ := perform_results acc { s with inbox := l }
    exact hin
  · rfl

/-- Everything a cycle's input can do when it is not a reset (R67). -/
theorem receive_cases_of_no_reset {s : State} (hr : s.resetNow = false) :
    s.receive = s ∨ (∃ l, s.receive = { s with inbox := l }) ∨
      ∃ acc l, s.receive = State.perform acc { s with inbox := l } := by
  obtain ⟨-, h⟩ | ⟨l, -, h⟩ | ⟨acc, l, -, h⟩ | ⟨l, hi, -⟩ := receive_cases s
  · exact .inl h
  · exact .inr (.inl ⟨l, h⟩)
  · exact .inr (.inr ⟨acc, l, h⟩)
  · cases hr.symm.trans ((resetNow_iff s).2 ⟨l, hi⟩)

/-- An input other than a reset leaves R, X, EXPO and every field of STAT but BUSY (R40). -/
theorem receive_results {s : State} (hr : s.resetNow = false) :
    s.receive.r = s.r ∧ s.receive.x = s.x ∧ s.receive.expo = s.expo ∧
      { s.receive.stat with busy := s.stat.busy } = s.stat := by
  obtain h | ⟨l, h⟩ | ⟨acc, l, h⟩ := receive_cases_of_no_reset hr <;> rw [h]
  · exact ⟨rfl, rfl, rfl, rfl⟩
  · exact ⟨rfl, rfl, rfl, rfl⟩
  · obtain ⟨hR, hX, hE, -⟩ := perform_results acc { s with inbox := l }
    refine ⟨hR, hX, hE, ?_⟩
    obtain ⟨hs, -⟩ | ⟨-, v, hs, -⟩ := perform_command acc { s with inbox := l } <;> rw [hs]

/-- While busy, an input other than a reset leaves the command in flight (R64, R266). -/
theorem receive_inFlight {s : State} (hr : s.resetNow = false) (hb : s.stat.busy = true) :
    s.receive.inFlight = s.inFlight := by
  obtain h | ⟨l, h⟩ | ⟨acc, l, h⟩ := receive_cases_of_no_reset hr <;> rw [h]
  obtain ⟨-, hf, -⟩ | ⟨hidle, -⟩ := perform_command acc { s with inbox := l }
  · exact hf
  · cases hb.symm.trans hidle

/-! ## What every step keeps -/

/-- Every step keeps the invariant: a reset and a waiting cycle through their inputs, a completion through its outcome. -/
theorem step_inv {s t : State} (h : s.Inv) (hs : step s = .next t) : t.Inv := by
  obtain ⟨-, rfl⟩ | ⟨-, -, out, hok, rfl⟩ | ⟨-, hd, rfl⟩ := step_next_cases hs
  · exact receive_inv h
  · exact finish_inv h hok
  · exact receive_inv (tick_inv h hd)

theorem step_cfg {s t : State} (hs : step s = .next t) : t.cfg = s.cfg := by
  obtain ⟨-, rfl⟩ | ⟨-, -, out, -, rfl⟩ | ⟨-, -, rfl⟩ := step_next_cases hs
  · exact receive_cfg s
  · exact (finish_sameInputs out s).cfg
  · exact receive_cfg s.tick

/-! ## The time of a command -/

/-- `n + 1` steps are `n` steps and one more. -/
theorem after_snoc {s t : State} {n : Nat} (h : s.after n = .next t) : s.after (n + 1) = step t := by
  induction n generalizing s with
  | zero =>
    obtain rfl : s = t := by simpa [State.after] using h
    simp only [State.after]
    split <;> simp [*]
  | succ n ih =>
    cases hs : step s with
    | next u => rw [after_succ hs] at h ⊢; exact ih h
    | fault r => simp [State.after, hs] at h
    | refused r => simp [State.after, hs] at h

theorem resetNow_eq_false {s : State} (h : ∀ e ∈ s.inbox, e ≠ Input.reset) : s.resetNow = false := by
  rw [Bool.eq_false_iff, Ne, resetNow_iff]
  rintro ⟨rest, hi⟩
  exact h .reset (by simp [hi]) rfl

/-- The command `f`, `n` cycles later: in flight in `t` with that many cycles fewer to go, and no reset to come. -/
structure Waiting (f : InFlight) (n : Nat) (t : State) : Prop where
  inv : t.Inv
  inFlight : t.inFlight = some { f with cyclesLeft := f.cyclesLeft - n }
  noReset : ∀ e ∈ t.inbox, e ≠ Input.reset

theorem Waiting.busy {f : InFlight} {n : Nat} {t : State} (h : Waiting f n t) : t.stat.busy = true :=
  h.inv.busy_iff.2 (by simp [h.inFlight])

/-- A cycle of the latency, whatever access comes in it, leaves the command waiting (R31, R266). -/
theorem Waiting.advance {f : InFlight} {n : Nat} {t : State} (h : Waiting f n t) (hn : n + 1 < f.cyclesLeft) :
    ∃ u, step t = .next u ∧ Waiting f (n + 1) u := by
  have hr : t.resetNow = false := resetNow_eq_false h.noReset
  have hd : t.due = false := not_due_of_lt_cyclesLeft fun g hg => by
    obtain rfl := Option.some.inj (h.inFlight.symm.trans hg)
    dsimp only; omega
  have hs := step_of_waiting hd hr
  refine ⟨_, hs, step_inv h.inv hs, ?_, fun e he => h.noReset e ?_⟩
  · rw [receive_inFlight (s := t.tick) hr h.busy, State.tick_inFlight, h.inFlight]
    rfl
  · rw [receive_inbox, State.tick_inbox] at he
    exact List.mem_of_mem_tail he

/-- In its last cycle the command completes (R31). -/
theorem Waiting.completes {f : InFlight} {n : Nat} {t : State} (h : Waiting f n t) (hn : f.cyclesLeft ≤ n + 1) :
    ∃ u, step t = .next u ∧ u.stat.busy = false ∧ u.inFlight = none := by
  have hd : t.due = true := due_of_cyclesLeft_le h.inFlight (by dsimp only; omega)
  have hr : t.resetNow = false := resetNow_eq_false h.noReset
  obtain ⟨out, -, hs⟩ := step_completes hd hr
  exact ⟨_, hs, finish_busy out t, finish_inFlight out t⟩

/-- Before its latency has passed the command is waiting. -/
theorem after_waiting {s : State} {f : InFlight} (h : Waiting f 0 s) (n : Nat) (hn : n < f.cyclesLeft) :
    ∃ t, s.after n = .next t ∧ Waiting f n t := by
  induction n with
  | zero => exact ⟨s, rfl, h⟩
  | succ n ih =>
    obtain ⟨t, ht, hw⟩ := ih (by omega)
    obtain ⟨u, hu, hw'⟩ := hw.advance hn
    exact ⟨u, (after_snoc ht).trans hu, hw'⟩

/-! ## The words of STAT and CFG -/

theorem getLsbD_toNat (v : Word) (i : Nat) : (v.getLsbD i).toNat = v.toNat / 2 ^ i % 2 := by
  rw [BitVec.getLsbD, Nat.testBit_eq_decide_div_mod_eq]
  rcases Nat.mod_two_eq_zero_or_one (v.toNat / 2 ^ i) with h | h <;> rw [h] <;> rfl

/-- The word of STAT as a number, by its fields (R30). -/
theorem Status.toWord_toNat (t : Status) :
    t.toWord.toNat = t.busy.toNat + 2 * t.c.toNat + 2 ^ 2 * t.z.toNat + 2 ^ 3 * t.ovf.toNat +
      2 ^ 4 * (truncCode t.trunc).toNat + 2 ^ 8 * (errCode t.err).toNat + 2 ^ 12 * t.rd.toNat := by
  unfold Status.toWord
  simp only [append_toNat, BitVec.toNat_ofBool, BitVec.toNat_ofNat]
  omega

/-- Every field of STAT stands at its bits (R30). -/
theorem Status.toWord_fields (t : Status) :
    t.toWord.getLsbD 0 = t.busy ∧ t.toWord.getLsbD 1 = t.c ∧ t.toWord.getLsbD 2 = t.z ∧ t.toWord.getLsbD 3 = t.ovf ∧
      t.toWord.extractLsb' 4 2 = truncCode t.trunc ∧ t.toWord.extractLsb' 6 2 = 0#2 ∧
      t.toWord.extractLsb' 8 4 = errCode t.err ∧ t.toWord.extractLsb' 12 4 = t.rd ∧
      t.toWord.extractLsb' 16 48 = 0#48 := by
  have h := t.toWord_toNat
  have hb := t.busy.toNat_le; have hc := t.c.toNat_le; have hz := t.z.toNat_le; have ho := t.ovf.toNat_le
  have ht := (truncCode t.trunc).isLt; have he := (errCode t.err).isLt; have hd := t.rd.isLt
  refine ⟨?_, ?_, ?_, ?_, ?_, ?_, ?_, ?_, ?_⟩
  · apply toNat_bool_ext; rw [getLsbD_toNat, h]; omega
  · apply toNat_bool_ext; rw [getLsbD_toNat, h]; omega
  · apply toNat_bool_ext; rw [getLsbD_toNat, h]; omega
  · apply toNat_bool_ext; rw [getLsbD_toNat, h]; omega
  · apply BitVec.eq_of_toNat_eq; rw [field_toNat, h]; omega
  · apply BitVec.eq_of_toNat_eq; rw [field_toNat, h, BitVec.toNat_ofNat]; omega
  · apply BitVec.eq_of_toNat_eq; rw [field_toNat, h]; omega
  · apply BitVec.eq_of_toNat_eq; rw [field_toNat, h]; omega
  · apply BitVec.eq_of_toNat_eq; rw [field_toNat, h, BitVec.toNat_ofNat]; omega

/-- CFG[2:0] is the code of the mode and 0 stands above it (R38). -/
theorem Cfg.toWord_code (g : Cfg) : g.toWord.extractLsb' 0 3 = roundingCode g.defMode ∧ g.toWord.toNat ≤ 5 := by
  obtain ⟨m⟩ := g
  cases m <;> decide

/-- The codes of R87 select their modes. -/
theorem roundingOf_roundingCode (m g : Rounding) : roundingOf (roundingCode m) g = some m := by
  cases m <;> rfl

/-! ## The obligations -/

/-- Settles O56, by cases on what the step does. -/
theorem everyStepKeepsTheInvariant : Obligations.EveryStepKeepsTheInvariant :=
  fun _ _ => step_inv

/-- Settles O7: the placed word is due and decodes to the instruction. -/
theorem placedCommandRunsNext : Obligations.PlacedCommandRunsNext := by
  intro s i h
  rw [withFetchWord_toNat]
  refine ⟨step_of_due (due_of_cyclesLeft_le (State.placeCommand_inFlight _ s) le_rfl) (placeCommand_resetNow _ s)
    (decode_encode h), _, State.placeCommand_inFlight _ s, rfl, rfl, ?_⟩
  rw [State.snapshot_expi, field_toNat]
  simp

/-- Settles O35: whatever its outcome, a command ends through `State.finish`. -/
theorem commandsLeaveOperandsAndEndBusy : Obligations.CommandsLeaveOperandsAndEndBusy := by
  intro i s t h
  obtain ⟨f, -, rfl⟩ := exec_next h
  exact ⟨finish_sameInputs _ s, finish_busy _ s, finish_inFlight _ s, finish_commandFailed _⟩

/-- Settles O36: only the outcome of a REDUCE has an exponent. -/
theorem onlyReduceWritesExpo : Obligations.OnlyReduceWritesExpo := by
  intro i s t h hop
  obtain ⟨f, -, rfl⟩ := exec_next h
  refine finish_expo_of_none (fun res hok => ?_) s
  rw [← Option.not_isSome_iff_eq_none, InFlight.outcome_expo hok]
  exact hop

/-- Settles O38, from the two ways a command ends. -/
theorem zeroFlagReadsTheResultOnly : Obligations.ZeroFlagReadsTheResultOnly := by
  intro s t f hf hle hr hs
  obtain ⟨out, -, h⟩ := step_completes (due_of_cyclesLeft_le hf hle) hr
  obtain rfl : s.finish out = t := by simpa [h] using hs
  rw [finish_zeroFlag, Limbs.isZero_iff_limbs]

/-- Settles O40: one snapshot and one default mode give one outcome. -/
theorem commandsComputeFromTheSnapshot : Obligations.CommandsComputeFromTheSnapshot := by
  intro i s u t v hfl hcfg ht hv
  obtain ⟨f, hf, -⟩ := exec_next ht
  exact exec_agree hf (hfl ▸ hf) hcfg rfl ht hv

/-- Settles O41: the outcome takes A and B modulo 2^W. -/
theorem limbsAboveTheWidthAreIgnored : Obligations.LimbsAboveTheWidthAreIgnored := by
  intro i s u t v f g hf hg hcfg hexpi ha hb ht hv
  have hout : f.outcome i u.cfg.defMode = g.outcome i u.cfg.defMode := by
    rw [InFlight.outcome, InFlight.outcome, Limbs.low_eq_mod, Limbs.low_eq_mod, Limbs.low_eq_mod, Limbs.low_eq_mod, ha, hb,
      hexpi]
  exact exec_agree hf hg hcfg hout ht hv

/-- Settles O51: the tables mode by mode, and `step_cfg`. -/
theorem cfgNeverChanges : Obligations.CfgNeverChanges := by
  refine ⟨by decide, fun g => ⟨rfl, rfl, rfl, rfl, rfl, rfl, rfl, rfl⟩, fun s t => ?_⟩
  obtain ⟨hcode, hle⟩ := s.cfg.toWord_code
  exact ⟨rfl, hle, hcode ▸ roundingOf_roundingCode _ _, step_cfg⟩

/-- Settles O57: the command waits for all but its last cycle and completes in that one. -/
theorem everyCommandCompletesWithinItsLatency : Obligations.EveryCommandCompletesWithinItsLatency := by
  intro s f hinv hf hin
  obtain ⟨hpos, hmax⟩ := hinv.latency_in f hf
  have hwait : Waiting f 0 s := ⟨hinv, hf, hin⟩
  refine ⟨hmax, ?_, fun n hn => ?_⟩
  · obtain ⟨t, ht, hw⟩ := after_waiting hwait (f.cyclesLeft - 1) (by omega)
    obtain ⟨u, hu, hidle⟩ := hw.completes (by omega)
    rw [← Nat.sub_add_cancel hpos, after_snoc ht]
    exact ⟨u, hu, hidle⟩
  · obtain ⟨t, ht, hw⟩ := after_waiting hwait n hn
    exact ⟨t, ht, hw.busy⟩

/-- Settles O59: such a step is a cycle of the latency and an input other than a reset. -/
theorem resultsChangeOnlyAtCompletion : Obligations.ResultsChangeOnlyAtCompletion := by
  intro s t hs hd hr
  obtain rfl : s.tick.receive = t := by simpa [step_of_waiting hd hr] using hs
  exact receive_results (s := s.tick) hr

/-- Settles O5: a due command runs its meaning; a waiting cycle takes its first input. -/
theorem stepRunsTheDecodedCommand : Obligations.StepRunsTheDecodedCommand := by
  refine ⟨fun s f i hf hle hr hc => step_of_due (due_of_cyclesLeft_le hf hle) hr hc, fun s hwait => ?_⟩
  have hd := not_due_of_lt_cyclesLeft hwait
  refine ⟨fun hi => ?_, fun rest hi => ?_, fun acc rest hi => ?_⟩
  all_goals
    rw [step_of_waiting hd (by simp [State.resetNow, hi])]
    simp [State.receive, State.tick, hi]

/-- Settles O49: the write is `State.start`, acknowledged. -/
theorem commandWriteStartsACommand : Obligations.CommandWriteStartsACommand := by
  intro s v hb
  obtain ⟨hlow, hhigh⟩ := latency_range s.draws
  refine ⟨s.snapshot (latency s.draws), s.ghost.unsetRead || !(wordReads v).allSet s.written, ?_, by simp, rfl, rfl, rfl,
    rfl, hlow, hhigh⟩
  rw [perform_cmd hb]
  rfl

/-- Settles O50, from the word of STAT as a number. -/
theorem statusWordLayout : Obligations.StatusWordLayout :=
  ⟨by decide, by decide, by decide, Status.toWord_fields⟩

end Sys2Proof.Machine
end

section
/-!
Proofs for 20_memory.md: the window of platform addresses, the register map, and what a read, a refused access and a write
to an operand register do.
-/

namespace Sys2Proof.Machine

/-! ## The window and its map -/

/-- R60: an address in the window reaches its own offset. -/
theorem windowOffset_eq_some_iff (addr : Nat) (off : BitVec 8) :
    windowOffset addr = some off ↔ addr = Config.base + off.toNat := by
  have hoff := off.isLt
  rw [windowOffset, Option.ite_none_right_eq_some, Option.some.injEq, ← BitVec.toNat_inj, BitVec.toNat_ofNat, Config.base]
  omega

/-- R60: outside the window there is no offset. -/
theorem windowOffset_eq_none_iff (addr : Nat) :
    windowOffset addr = none ↔ addr < Config.base ∨ Config.base + 256 ≤ addr := by
  simp only [windowOffset, ite_eq_right_iff, reduceCtorEq, imp_false, Config.base]
  omega

theorem offsetOf_of_regAt {off : BitVec 8} {g : Reg} (h : regAt off = some g) : offsetOf g = off := by
  have hmap : ∀ off, ∀ g ∈ regAt off, offsetOf g = off := by decide
  exact hmap off g h

theorem regAt_eq_some_iff (off : BitVec 8) (g : Reg) : regAt off = some g ↔ offsetOf g = off :=
  ⟨offsetOf_of_regAt, fun h => h ▸ regAt_offsetOf g⟩

theorem regAt_eq_none_iff (off : BitVec 8) : regAt off = none ↔ off.toNat % 8 ≠ 0 ∨ 0xA8 ≤ off.toNat := by
  rw [← Option.not_isSome_iff_eq_none, regAt_isSome, Bool.and_eq_true, decide_eq_true_iff, decide_eq_true_iff]
  omega

@[simp] theorem offsetOf_a_toNat (i : Fin 4) : (offsetOf (.a i)).toNat = 0x00 + 8 * i.val :=
  Nat.mod_eq_of_lt (by omega)

@[simp] theorem offsetOf_b_toNat (i : Fin 4) : (offsetOf (.b i)).toNat = 0x20 + 8 * i.val :=
  Nat.mod_eq_of_lt (by omega)

@[simp] theorem offsetOf_r_toNat (i : Fin 4) : (offsetOf (.r i)).toNat = 0x40 + 8 * i.val :=
  Nat.mod_eq_of_lt (by omega)

@[simp] theorem offsetOf_x_toNat (i : Fin 4) : (offsetOf (.x i)).toNat = 0x60 + 8 * i.val :=
  Nat.mod_eq_of_lt (by omega)

@[simp] theorem target_offsetOf (g : Reg) : target (offsetOf g) 8 = some g := by
  rw [target, if_pos rfl, regAt_offsetOf]

/-- R61, R64: the accesses that reach no register. -/
theorem target_eq_none_iff (off : BitVec 8) (size : Nat) :
    target off size = none ↔ size ≠ 8 ∨ off.toNat % 8 ≠ 0 ∨ 0xA8 ≤ off.toNat := by
  rw [target, ite_eq_right_iff, regAt_eq_none_iff, imp_iff_not_or]

/-! ## Accesses that reach a register, and refused ones -/

theorem perform_read_offsetOf (g : Reg) (s : State) : s.perform (.read (offsetOf g) 8) = s.hostRead g := by
  simp [State.perform]

theorem perform_write_offsetOf {g : Reg} {v : Word} {s t : State} (h : s.writeReg g v = some t) :
    s.perform (.write (offsetOf g) 8 v) = t.respond .done := by
  simp [State.perform, h]

theorem perform_read_refused {off : BitVec 8} {size : Nat} (h : target off size = none) (s : State) :
    s.perform (.read off size) = s.busError := by
  simp [State.perform, h]

/-- A write is refused where no register takes it (R64). -/
theorem perform_write_refused {off : BitVec 8} {size : Nat} {v : Word} {s : State}
    (h : ∀ g, target off size = some g → s.writeReg g v = none) : s.perform (.write off size v) = s.busError := by
  have hnone : (target off size).bind (fun g => s.writeReg g v) = none := Option.bind_eq_none_iff.2 h
  simp [State.perform, hnone]

/-- R62, R64: the registers that take no write, by their offsets: R, X, EXPO, STAT, CFG, and CMD while busy. -/
theorem writeReg_eq_none_iff (g : Reg) (v : Word) (s : State) :
    s.writeReg g v = none ↔ (0x40 ≤ (offsetOf g).toNat ∧ (offsetOf g).toNat < 0x80) ∨ (offsetOf g).toNat = 0x88 ∨
      (offsetOf g).toNat = 0x98 ∨ (offsetOf g).toNat = 0xA0 ∨ ((offsetOf g).toNat = 0x90 ∧ s.stat.busy = true) := by
  cases g
  case a i | b i | r i | x i => simp [State.writeReg]; omega
  case expi | expo | cmd | stat | cfg => simp [State.writeReg, offsetOf]

/-! ## What a register holds after a write to an operand register -/

/-- Marking one limb as set leaves the other marks alone (R261). -/
theorem LimbFlags.get_mark (g : LimbFlags) (i j : Fin 4) : (g.mark i).get j = (decide (j = i) || g.get j) := by
  fin_cases i <;> fin_cases j <;> rfl

@[simp] theorem readReg_respond (g : Reg) (p : Response) (s : State) : (s.respond p).readReg g = s.readReg g := by
  cases g <;> rfl

@[simp] theorem isSet_respond (g : Reg) (p : Response) (s : State) : (s.respond p).isSet g = s.isSet g := by
  cases g <;> rfl

section
variable {g : Reg} {v : Word} {s t : State} (hw : s.writeReg g v = some t) (hg : g ≠ .cmd)
include hw hg

theorem readReg_of_writeReg (h : Reg) : t.readReg h = if h = g then v else s.readReg h := by
  obtain ⟨i, rfl, rfl⟩ | ⟨i, rfl, rfl⟩ | ⟨rfl, rfl⟩ | ⟨rfl, -⟩ := writeReg_cases hw
  · cases h <;> simp [State.readReg, Limbs.get_set]
  · cases h <;> simp [State.readReg, Limbs.get_set]
  · cases h <;> simp [State.readReg]
  · exact absurd rfl hg

theorem isSet_of_writeReg (h : Reg) : t.isSet h = (decide (h = g) || s.isSet h) := by
  obtain ⟨i, rfl, rfl⟩ | ⟨i, rfl, rfl⟩ | ⟨rfl, rfl⟩ | ⟨rfl, -⟩ := writeReg_cases hw
  · cases h <;> simp [State.isSet, LimbFlags.get_mark]
  · cases h <;> simp [State.isSet, LimbFlags.get_mark]
  · cases h <;> simp [State.isSet]
  · exact absurd rfl hg

/-- R65, R266: what a write to an operand register leaves as it was. -/
theorem writeReg_frame : t = { s with a := t.a, b := t.b, expi := t.expi, written := t.written } := by
  obtain ⟨i, -, rfl⟩ | ⟨i, -, rfl⟩ | ⟨-, rfl⟩ | ⟨rfl, -⟩ := writeReg_cases hw
  · rfl
  · rfl
  · rfl
  · exact absurd rfl hg

end

/-! ## The obligations -/

/-- Settles O44, by the two directions of the window. -/
theorem windowIs256BytesAtBase : Obligations.WindowIs256BytesAtBase :=
  fun addr => ⟨windowOffset_eq_some_iff addr, windowOffset_eq_none_iff addr⟩

/-- Settles O45: no register is reached, or the one reached takes no write. -/
theorem busErrorsChangeNothing : Obligations.BusErrorsChangeNothing := by
  intro s off size v
  refine ⟨fun h => perform_read_refused ((target_eq_none_iff off size).2 h) s, fun h => perform_write_refused fun g hg => ?_⟩
  obtain ⟨-, hr⟩ := target_cases hg
  obtain rfl := offsetOf_of_regAt hr
  refine (writeReg_eq_none_iff g v s).2 (h.resolve_left fun hno => ?_)
  cases hg.symm.trans ((target_eq_none_iff _ size).2 hno)

/-- Settles O48: the write is taken by `State.writeReg` and acknowledged. -/
theorem operandWritesAreStored : Obligations.OperandWritesAreStored := by
  intro s g h v hop
  obtain ⟨⟨u, hw⟩, hg⟩ : (∃ u, s.writeReg g v = some u) ∧ g ≠ .cmd := by
    obtain ⟨i, rfl⟩ | ⟨i, rfl⟩ | rfl := hop <;> exact ⟨⟨_, rfl⟩, nofun⟩
  dsimp only
  rw [perform_write_offsetOf hw]
  refine ⟨?_, ?_, fun hne => ⟨?_, ?_⟩, ?_⟩
  · simp [readReg_of_writeReg hw hg]
  · simp [isSet_of_writeReg hw hg]
  · simp [readReg_of_writeReg hw hg, hne]
  · simp [isSet_of_writeReg hw hg, hne]
  · exact congrArg (State.respond .done) (writeReg_frame hw hg)

/-- Settles O43, from the map and its inverse. -/
theorem registerMapOfTheWindow : Obligations.RegisterMapOfTheWindow :=
  ⟨regAt_eq_some_iff, fun i => ⟨offsetOf_a_toNat i, offsetOf_b_toNat i, offsetOf_r_toNat i, offsetOf_x_toNat i⟩,
    rfl, rfl, rfl, rfl, rfl⟩

/-- Settles O46, from `hostRead_idle`. -/
theorem idleReadAnswersTheRegister : Obligations.IdleReadAnswersTheRegister := by
  intro s g hb
  refine ⟨s.ghost.unsetRead || !s.isSet g, ?_, by simp⟩
  rw [perform_read_offsetOf, hostRead_idle g hb]

end Sys2Proof.Machine
end

section
/-!
Proofs for 30_encoding.md: what each check of the decoder accepts and rejects, the round trips of words and commands, and the
command words that reach the unit.
-/

namespace Sys2Proof

/-! ## The fields of a word as numbers (R81) -/

theorem fieldOpc_toNat (v : Word) : (fieldOpc v).toNat = v.toNat % 2 ^ 8 := by
  rw [fieldOpc, field_toNat, Nat.pow_zero, Nat.div_one]

theorem fieldW_toNat (v : Word) : (fieldW v).toNat = v.toNat / 2 ^ 8 % 2 ^ 2 := field_toNat v 8 2

theorem fieldK_toNat (v : Word) : (fieldK v).toNat = v.toNat / 2 ^ 10 % 2 ^ 6 := field_toNat v 10 6

theorem fieldRm_toNat (v : Word) : (fieldRm v).toNat = v.toNat / 2 ^ 16 % 2 ^ 3 := field_toNat v 16 3

theorem fieldTin_toNat (v : Word) : (fieldTin v).toNat = v.toNat / 2 ^ 20 % 2 ^ 2 := field_toNat v 20 2

theorem fieldReserved_toNat (v : Word) : (fieldReserved v).toNat = v.toNat / 2 ^ 22 := by
  have hv := v.isLt
  rw [fieldReserved, field_toNat]
  omega

/-! ## What each check of R95 accepts -/

theorem accept_if_eq_ok_iff {c : Prop} [Decidable c] {x : Except IllegalWord Instr} {e : IllegalWord} {i : Instr} :
    (if c then x else .error e) = .ok i ↔ x = .ok i ∧ c := by
  split <;> simp [*]

theorem reject_if_eq_ok_iff {c : Prop} [Decidable c] {x : Except IllegalWord Instr} {e : IllegalWord} {i : Instr} :
    (if c then .error e else x) = .ok i ↔ x = .ok i ∧ ¬ c := by
  rw [← ite_not, accept_if_eq_ok_iff]

theorem reduceFieldsZero_iff (rm : BitVec 3) (sgn : Bool) (tin : BitVec 2) :
    reduceFieldsZero rm sgn tin = true ↔ rm = 0#3 ∧ sgn = false ∧ tin = 0#2 := by
  simp [reduceFieldsZero, and_assoc]

section
variable {w : Width} {k : BitVec 6} {rm : BitVec 3} {sgn : Bool} {tin : BitVec 2}

theorem plainCommand_eq_ok_iff {i j : Instr} :
    plainCommand k rm sgn tin i = .ok j ↔ i = j ∧ rm = 0#3 ∧ sgn = false ∧ tin = 0#2 ∧ k = 0#6 := by
  simp [plainCommand, accept_if_eq_ok_iff, reduceFieldsZero_iff, and_assoc]

theorem factorCommand_eq_ok_iff {i : Option Instr} {j : Instr} :
    factorCommand rm sgn tin i = .ok j ↔ i = some j ∧ rm = 0#3 ∧ sgn = false ∧ tin = 0#2 := by
  cases i <;> simp [factorCommand, accept_if_eq_ok_iff, reduceFieldsZero_iff]

theorem reduceCommand_eq_ok_iff {j : Instr} :
    reduceCommand w k rm sgn tin = .ok j ↔ .reduce w rm sgn tin = j ∧ k = 0#6 ∧ rm ≠ 7#3 ∧ tin ≠ 3#2 := by
  simp only [reduceCommand, reject_if_eq_ok_iff, Except.ok.injEq, ne_eq, not_not, and_assoc, and_comm, and_left_comm]

theorem wellFormed_reduce (hrm : rm ≠ 7#3) (htin : tin ≠ 3#2) : (Instr.reduce w rm sgn tin).wellFormed = true := by
  cases w <;> simp [Instr.reduce, Instr.wellFormed, legalRm, legalTin, hrm, htin]

/-- The checks accept some fields only as a legal command with those very fields: no bit of them is dropped (R91, R95). -/
theorem fields_of_checkFields {op : Op} {i : Instr} (h : checkFields op w k rm sgn tin = .ok i) :
    i.fields = ⟨op, w, k, rm, sgn, tin⟩ ∧ i.wellFormed = true := by
  cases op
  case mulp10 =>
    obtain ⟨hi, rfl, rfl, rfl⟩ := factorCommand_eq_ok_iff.1 h
    obtain ⟨c, hc, rfl⟩ := Option.map_eq_some_iff.1 hi
    obtain rfl := MulFactor.ofCode_eq hc
    cases w <;> cases c <;> exact ⟨rfl, rfl⟩
  case divp10 =>
    obtain ⟨hi, rfl, rfl, rfl⟩ := factorCommand_eq_ok_iff.1 h
    obtain ⟨c, hc, rfl⟩ := Option.map_eq_some_iff.1 hi
    obtain rfl := DivFactor.ofCode_eq hc
    cases w <;> cases c <;> exact ⟨rfl, rfl⟩
  case reduce =>
    obtain ⟨rfl, rfl, hrm, htin⟩ := reduceCommand_eq_ok_iff.1 h
    exact ⟨by cases w <;> rfl, wellFormed_reduce hrm htin⟩
  case log10 =>
    obtain ⟨hp, rfl⟩ := accept_if_eq_ok_iff.1 h
    obtain ⟨rfl, rfl, rfl, rfl, rfl⟩ := plainCommand_eq_ok_iff.1 hp
    exact ⟨rfl, rfl⟩
  all_goals
    obtain ⟨rfl, rfl, rfl, rfl, rfl⟩ := plainCommand_eq_ok_iff.1 h
    cases w <;> exact ⟨rfl, rfl⟩

end

theorem decode_eq_ok_iff {v : Word} {i : Instr} :
    decode v = .ok i ↔ fieldReserved v = 0#42 ∧ ∃ op w, Op.ofCode (fieldOpc v) = some op ∧
      Width.ofCode (fieldW v) = some w ∧ checkFields op w (fieldK v) (fieldRm v) (fieldSgn v) (fieldTin v) = .ok i := by
  unfold decode
  cases Op.ofCode (fieldOpc v) <;> cases Width.ofCode (fieldW v) <;> simp [accept_if_eq_ok_iff, and_comm]

/-- An accepted word is the word of its command, since the two have the same fields, and the command is legal (R94, R95). -/
theorem encode_of_decode {v : Word} {i : Instr} (h : decode v = .ok i) : encode i = v ∧ i.wellFormed = true := by
  obtain ⟨hres, op, w, hop, hw, hc⟩ := decode_eq_ok_iff.1 h
  obtain ⟨hf, hwf⟩ := fields_of_checkFields hc
  refine ⟨?_, hwf⟩
  rw [encode, hf]
  obtain ⟨eopc, ew, ek, erm, esgn, etin, eres⟩ :=
    Fields.word_fields ⟨op, w, fieldK v, fieldRm v, fieldSgn v, fieldTin v⟩
  exact word_ext (eopc.trans (Op.ofCode_eq hop).symm) (ew.trans (Width.ofCode_eq hw).symm) ek erm esgn etin
    (eres.trans hres.symm)

/-- A legal command and its word stand for each other (R97). -/
theorem decode_and_encode_of_word {v : Word} {i : Instr} (hi : i.wellFormed = true) (hv : encode i = v) :
    decode v = .ok i ∧ encode i = v :=
  ⟨hv ▸ decode_encode hi, hv⟩

/-! ## What each check of R95 rejects -/

theorem Op.ofCode_eq_none_iff (c : BitVec 8) : Op.ofCode c = none ↔
    c.toNat ∉ [0x01, 0x02, 0x03, 0x10, 0x11, 0x12, 0x20, 0x21, 0x30, 0x31, 0x38, 0x39, 0x40] := by
  revert c; decide

theorem Width.ofCode_eq_none_iff (c : BitVec 2) : Width.ofCode c = none ↔ c.toNat = 0 := by
  revert c; decide

theorem MulFactor.ofCode_eq_none_iff (k : BitVec 6) : MulFactor.ofCode k = none ↔ k.toNat ∉ [1, 2, 3, 4, 8, 19, 38] := by
  revert k; decide

theorem DivFactor.ofCode_eq_none_iff (k : BitVec 6) : DivFactor.ofCode k = none ↔ k.toNat ∉ [1, 3, 4, 8, 19] := by
  revert k; decide

/-- A listed opcode number is the number of its own operation only (R89). -/
theorem Op.toNat_eq_code_iff {c : BitVec 8} {op : Op} (h : Op.ofCode c = some op) (o : Op) :
    c.toNat = o.code.toNat ↔ op = o := by
  rw [BitVec.toNat_inj]
  refine ⟨?_, fun ho => ho ▸ Op.ofCode_eq h⟩
  rintro rfl
  exact Option.some.inj (h.symm.trans (Op.ofCode_code o))

theorem Width.toNat_eq_code_iff {c : BitVec 2} {w : Width} (h : Width.ofCode c = some w) (u : Width) :
    c.toNat = u.code.toNat ↔ w = u := by
  rw [BitVec.toNat_inj]
  refine ⟨?_, fun hu => hu ▸ Width.ofCode_eq h⟩
  rintro rfl
  exact Option.some.inj (h.symm.trans (Width.ofCode_code u))

theorem exists_error_iff_forall_ne_ok (x : Except IllegalWord Instr) : (∃ e, x = .error e) ↔ ∀ i, ¬ x = .ok i := by
  cases x <;> simp

section
variable (w : Width) (k : BitVec 6) (rm : BitVec 3) (sgn : Bool) (tin : BitVec 2)

theorem plainCommand_rejects_iff (i : Instr) :
    (∃ e, plainCommand k rm sgn tin i = .error e) ↔ rm ≠ 0#3 ∨ sgn ≠ false ∨ tin ≠ 0#2 ∨ k ≠ 0#6 := by
  simp [exists_error_iff_forall_ne_ok, plainCommand_eq_ok_iff, not_and_or, forall_or_right, -not_and]

theorem factorCommand_rejects_iff (i : Option Instr) :
    (∃ e, factorCommand rm sgn tin i = .error e) ↔ rm ≠ 0#3 ∨ sgn ≠ false ∨ tin ≠ 0#2 ∨ i = none := by
  cases i <;> simp [exists_error_iff_forall_ne_ok, factorCommand_eq_ok_iff, not_and_or, forall_or_right, -not_and]

theorem reduceCommand_rejects_iff :
    (∃ e, reduceCommand w k rm sgn tin = .error e) ↔ k ≠ 0#6 ∨ rm = 7#3 ∨ tin = 3#2 := by
  simp [exists_error_iff_forall_ne_ok, reduceCommand_eq_ok_iff, not_and_or, forall_or_right, -not_and]

/-- The fields the checks reject, once the operation and the width are known (R84, R86, R91 to R93). -/
theorem checkFields_rejects_iff (op : Op) :
    (∃ e, checkFields op w k rm sgn tin = .error e) ↔
      (op = .log10 ∧ w ≠ .w128) ∨ (op = .reduce ∧ (k ≠ 0#6 ∨ rm = 7#3 ∨ tin = 3#2)) ∨
      (op ≠ .reduce ∧ (rm ≠ 0#3 ∨ sgn ≠ false ∨ tin ≠ 0#2 ∨ (op = .mulp10 ∧ MulFactor.ofCode k = none) ∨
        (op = .divp10 ∧ DivFactor.ofCode k = none) ∨ (op ≠ .mulp10 ∧ op ≠ .divp10 ∧ k ≠ 0#6))) := by
  cases op
  case mulp10 | divp10 => simp [checkFields, factorCommand_rejects_iff]
  case reduce => simp [checkFields, reduceCommand_rejects_iff]
  case log10 => cases w <;> simp [checkFields, plainCommand_rejects_iff]
  all_goals simp [checkFields, plainCommand_rejects_iff]

end

theorem decode_rejects_iff (v : Word) :
    (∃ e, decode v = .error e) ↔ fieldReserved v ≠ 0#42 ∨ Op.ofCode (fieldOpc v) = none ∨ Width.ofCode (fieldW v) = none ∨
      ∃ op w, Op.ofCode (fieldOpc v) = some op ∧ Width.ofCode (fieldW v) = some w ∧
        ∃ e, checkFields op w (fieldK v) (fieldRm v) (fieldSgn v) (fieldTin v) = .error e := by
  unfold decode
  by_cases h : fieldReserved v = 0#42
  · cases Op.ofCode (fieldOpc v) <;> cases Width.ofCode (fieldW v) <;> simp [h]
  · simp [h]

end Sys2Proof

namespace Sys2Proof.Machine

/-! ## Command words at the unit -/

/-- R84, R86, R233: REDUCE with a field that names no mode or no truncation state. -/
theorem runReduce_illegal {w : Width} {rm : BitVec 3} {sgn : Bool} {tin : BitVec 2} {s : State} {f : InFlight}
    (hf : s.inFlight = some f) (h : roundingOf rm s.cfg.defMode = none ∨ truncOf tin = none) :
    runReduce w rm sgn tin s = .next (s.fail .illegal) := by
  have hrun : runIllegal s = .next (s.fail .illegal) := runCommand_next hf _
  obtain hm | ht := h
  · rw [runReduce, hm, hrun]
  · cases hm : roundingOf rm s.cfg.defMode <;> simp only [runReduce, hm, ht, hrun]

/-! ## The obligations -/

/-- Settles O2: the fields of the word are those of the command, which passes the checks. -/
theorem encodeThenDecode : Obligations.EncodeThenDecode :=
  fun _ => decode_encode

/-- Settles O3: the command has the fields of the word, and a word is determined by its fields. -/
theorem decodeThenEncode : Obligations.DecodeThenEncode :=
  fun _ _ => encode_of_decode

/-- Settles O4: `decode_rejects_iff` in numbers; where OPC and W have their codes, `checkFields` decides. -/
theorem decodeRejectsExactlyTheIllegalWords : Obligations.DecodeRejectsExactlyTheIllegalWords := by
  intro v
  dsimp only
  rw [decode_rejects_iff, ← fieldReserved_toNat, ← fieldOpc_toNat, ← fieldW_toNat, ← fieldK_toNat, ← fieldRm_toNat,
    ← fieldSgn_toNat, ← fieldTin_toNat, ← Op.ofCode_eq_none_iff, ← Width.ofCode_eq_none_iff,
    ← MulFactor.ofCode_eq_none_iff, ← DivFactor.ofCode_eq_none_iff]
  cases hop : Op.ofCode (fieldOpc v) with
  | none => simp
  | some op =>
    cases hw : Width.ofCode (fieldW v) with
    | none => simp
    | some w =>
      have hlog : (fieldOpc v).toNat = 0x39 ↔ op = .log10 := Op.toNat_eq_code_iff hop .log10
      have hred : (fieldOpc v).toNat = 0x40 ↔ op = .reduce := Op.toNat_eq_code_iff hop .reduce
      have hmul : (fieldOpc v).toNat = 0x12 ↔ op = .mulp10 := Op.toNat_eq_code_iff hop .mulp10
      have hdiv : (fieldOpc v).toNat = 0x21 ↔ op = .divp10 := Op.toNat_eq_code_iff hop .divp10
      have h128 : (fieldW v).toNat = 1 ↔ w = .w128 := Width.toNat_eq_code_iff hw .w128
      simp [checkFields_rejects_iff, hlog, hred, hmul, hdiv, h128, ← BitVec.toNat_inj]

/-- Settles O52: the write starts the word of the command, which decodes to it. -/
theorem hostCommandStatementStartsThatCommand : Obligations.HostCommandStatementStartsThatCommand := by
  intro s c hb hc
  have hstart : s.perform (.write (offsetOf .cmd) 8 (BitVec.ofNat 64 (encode c).toNat)) =
      (s.start (encode c)).respond .done := by
    rw [BitVec.ofNat_toNat, BitVec.setWidth_eq]
    exact perform_cmd hb (encode c)
  rw [hstart]
  exact ⟨rfl, _, rfl, decode_encode hc⟩

/-- Settles O1: each word is the word of its legal command. -/
theorem exampleWordsDecode : Obligations.ExampleWordsDecode :=
  ⟨decode_and_encode_of_word rfl rfl, decode_and_encode_of_word rfl rfl, decode_and_encode_of_word rfl rfl,
    decode_and_encode_of_word rfl rfl, decode_and_encode_of_word rfl rfl, decode_and_encode_of_word rfl rfl⟩

/-- Settles O27: RM = 7 names no rounding mode, TIN = 0b11 no truncation state. -/
theorem illegalReduceFails : Obligations.IllegalReduceFails := by
  intro w rm sgn tin s f hf h
  refine ⟨_, ?_, failure_plain s .illegal⟩
  rw [exec_reduce]
  exact runReduce_illegal hf (h.imp (by rintro rfl; rfl) (by rintro rfl; rfl))

end Sys2Proof.Machine
end

section
/-!
Proofs for 40_addsub.md: the carry, the difference and the two's complement as equations on numbers below 2^W, what ADD, SUB
and NEG complete with, and the identity of R116.
-/

namespace Sys2Proof.Machine

theorem Limbs.low_ofNat_of_lt {w : Width} {v : Nat} (h : v < 2 ^ bits w) : (Limbs.ofNat v).low w = v := by
  rw [Limbs.low_eq_mod, Limbs.toNat_ofNat, Nat.mod_eq_of_lt (h.trans_le (two_pow_bits_le w)), Nat.mod_eq_of_lt h]

/-! ## The results as numbers -/

theorem nonZero_eq_decide (a : Nat) : nonZero a = decide (a ≠ 0) := by
  rw [Bool.eq_iff_iff]
  simp [nonZero]

section
variable {w : Width} {a b : Nat} (ha : a < 2 ^ bits w) (hb : b < 2 ^ bits w)

theorem subResult_lt : (subResult w a b).r < 2 ^ bits w := Nat.mod_lt _ (by positivity)

theorem negResult_lt : (negResult w a).r < 2 ^ bits w := Nat.mod_lt _ (by positivity)

include ha in
/-- R113: 0 is its own negation; any other number adds up to 2^W with its negation. -/
theorem negResult_spec : if a = 0 then (negResult w a).r = 0 else (negResult w a).r + a = 2 ^ bits w := by
  simp only [negResult]
  split
  · next h => simp [h]
  · next h =>
    rw [Nat.mod_eq_of_lt (by omega)]
    omega

include ha hb

/-- R111: the sum of two W-bit numbers is below 2^(W+1), so its quotient by 2^W is the carry. -/
theorem carryOut_add : carryOut w (a + b) = decide (2 ^ bits w ≤ a + b) := by
  rw [carryOut, Bool.eq_iff_iff, beq_iff_eq, decide_eq_true_iff]
  by_cases h : 2 ^ bits w ≤ a + b
  · have hq : (a + b) / 2 ^ bits w = 1 := by
      rw [Nat.div_eq_iff (by positivity)]
      omega
    simp [hq, h]
  · simp [Nat.div_eq_of_lt (Nat.lt_of_not_le h), h]

/-- R112: adding the subtrahend back gives the minuend, and 2^W more where there was a borrow. -/
theorem subResult_spec :
    if a < b then (subResult w a b).r + b = a + 2 ^ bits w else (subResult w a b).r + b = a := by
  simp only [subResult]
  split
  · rw [Nat.mod_eq_of_lt (by omega)]
    omega
  · next h =>
    have hsum : a + 2 ^ bits w - b = a - b + 2 ^ bits w := by omega
    rw [hsum, Nat.add_mod_right, Nat.mod_eq_of_lt (by omega)]
    omega

/-- R116: negating the difference swaps its operands. -/
theorem negResult_subResult : (negResult w (subResult w b a).r).r = (subResult w a b).r := by
  have hlt : (subResult w b a).r < 2 ^ bits w := subResult_lt
  have hneg := negResult_spec hlt
  have hsub := subResult_spec ha hb
  have hswap := subResult_spec hb ha
  split at hneg <;> split at hsub <;> split at hswap <;> omega

end

/-! ## What the commands complete with -/

section
variable {s : State} {f : InFlight} (w : Width) (hf : s.inFlight = some f)
include hf

theorem exec_add_next : exec (.add w) s = .next (s.succeed (addResult w (f.a.low w) (f.b.low w))) := by
  rw [exec_add]
  exact runCommand_next hf _

theorem exec_sub_next : exec (.sub w) s = .next (s.succeed (subResult w (f.a.low w) (f.b.low w))) := by
  rw [exec_sub]
  exact runCommand_next hf _

theorem exec_neg_next : exec (.neg w) s = .next (s.succeed (negResult w (f.a.low w))) := by
  rw [exec_neg]
  exact runCommand_next hf _

end

/-- A command whose result is a number of W bits (R110, R114): R holds it whole, X is 0. -/
theorem completion_of_lt_two_pow_bits (s : State) {w : Width} {r : Nat} (h : r < 2 ^ bits w) (c : Bool) :
    Completion s (s.succeed { r := r, c := c }) r 0 c := by
  have hr : r % 2 ^ 256 = r := Nat.mod_eq_of_lt (h.trans_le (two_pow_bits_le w))
  have hplain := completion_plain s r 0 c
  rwa [hr] at hplain

/-! ## The obligations -/

/-- Settles O9: the sum has at most 257 bits, so R and one bit of X hold it. -/
theorem addCompletesWithTheWidenedSum : Obligations.AddCompletesWithTheWidenedSum := by
  intro w s f hf
  have ha := f.a.low_lt_256 w
  have hb := f.b.low_lt_256 w
  rw [← carryOut_add (f.a.low_lt w) (f.b.low_lt w)]
  refine ⟨_, _, _, exec_add_next w hf, ?_, ?_, completion_plain s _ _ _⟩
  · omega
  · exact Nat.mod_lt _ (by positivity)

/-- Settles O10, from the equation of the difference. -/
theorem subCompletesWithTheDifference : Obligations.SubCompletesWithTheDifference :=
  fun w s f hf => ⟨_, _, exec_sub_next w hf, subResult_lt, subResult_spec (f.a.low_lt w) (f.b.low_lt w),
    completion_of_lt_two_pow_bits s subResult_lt _⟩

/-- Settles O11, from the equation of the two's complement. -/
theorem negCompletesWithTheTwosComplement : Obligations.NegCompletesWithTheTwosComplement := by
  intro w s f hf
  rw [← nonZero_eq_decide]
  exact ⟨_, _, exec_neg_next w hf, negResult_spec (f.a.low_lt w), completion_of_lt_two_pow_bits s negResult_lt _⟩

/-- Settles O12: NEG reads the second difference whole, since it has W bits. -/
theorem subIsTheNegationOfTheSwappedSub : Obligations.SubIsTheNegationOfTheSwappedSub := by
  intro w s s' u f f' g t t' v hf hf' hab hba hs hs' hg hga hu
  cases (exec_sub_next w hf).symm.trans hs
  cases (exec_sub_next w hf').symm.trans hs'
  cases (exec_neg_next w hg).symm.trans hu
  rw [hab, hba] at hga ⊢
  constructor
  · have hlow : g.a.low w = (subResult w (f.b.low w) (f.a.low w)).r := by
      rw [hga, State.succeed_r, Limbs.low_ofNat_of_lt subResult_lt]
    rw [State.succeed_r, State.succeed_r, hlow, negResult_subResult (f.a.low_lt w) (f.b.low_lt w)]
  · simp only [State.succeed_stat, Status.succeeded_c, subResult, borrow, decide_eq_true_iff, decide_eq_false_iff_not]
    omega

end Sys2Proof.Machine
end

section
/-!
Proofs for 41_multiply.md: a product of a 256-bit number and a factor below 2^n has a high part below 2^n, so that X:R holds it
whole, and what MUL, MUL64 and MULP10 complete with.
-/

namespace Sys2Proof

/-- The constants of MULP10 are at most 10^38 < 2^127 (R132): two limbs hold them. -/
theorem MulFactor.ten_pow_exponent_lt (k : MulFactor) : 10 ^ k.exponent < 2 ^ 128 := by
  cases k <;> decide

end Sys2Proof

namespace Sys2Proof.Machine

section
variable {a m n : Nat} (ha : a < 2 ^ 256) (hm : m < 2 ^ n)
include ha hm

/-- The part of a product above R is below any power of two that the factor is below (R133). -/
theorem product_high_lt : a * m / 2 ^ 256 < 2 ^ n :=
  Nat.div_lt_of_lt_mul (Nat.mul_lt_mul'' ha hm)

/-- R130 to R133: a command that multiplies a 256-bit number by a factor of `n` bits leaves the exact product in X:R, and at
most `n` bits of it in X. -/
theorem completion_product (hn : n ≤ 256) (s : State) :
    ∃ r x, r + 2 ^ 256 * x = a * m ∧ r < 2 ^ 256 ∧ x < 2 ^ n ∧
      Completion s (s.succeed (productResult a m)) r x false := by
  have hx : a * m / 2 ^ 256 < 2 ^ n := product_high_lt ha hm
  have hmod : a * m / 2 ^ 256 % 2 ^ 256 = a * m / 2 ^ 256 :=
    Nat.mod_eq_of_lt (hx.trans_le (Nat.pow_le_pow_right (by decide) hn))
  have hplain := completion_plain s (a * m) (a * m / 2 ^ 256) false
  rw [hmod] at hplain
  exact ⟨_, _, Nat.mod_add_div _ _, Nat.mod_lt _ (by positivity), hx, hplain⟩

end

/-! ## The obligations -/

/-- Settles O13: B_W has at most 256 bits, so X holds the high part of the product whole. -/
theorem mulCompletesWithTheProduct : Obligations.MulCompletesWithTheProduct := by
  intro w s f hf
  obtain ⟨r, x, hprod, hr, -, hc⟩ := completion_product (f.a.low_lt_256 w) (f.b.low_lt_256 w) le_rfl s
  exact ⟨_, r, x, (exec_mul w s).trans (runCommand_next hf _), hprod, hr, hc⟩

/-- Settles O14: B0 has 64 bits, so the high part of the product has one limb. -/
theorem mulByOneLimbCompletesWithTheProduct : Obligations.MulByOneLimbCompletesWithTheProduct := by
  intro w s f hf
  obtain ⟨r, x, hc⟩ := completion_product (f.a.low_lt_256 w) f.b.first_lt (by decide) s
  exact ⟨_, r, x, (exec_mul64 w s).trans (runCommand_next hf _), hc⟩

/-- Settles O15: 10^k is below 2^128, so the high part of the product has two limbs. -/
theorem mulByPowerOfTenCompletesWithTheProduct : Obligations.MulByPowerOfTenCompletesWithTheProduct := by
  intro w k s f hf
  obtain ⟨r, x, hc⟩ := completion_product (f.a.low_lt_256 w) k.ten_pow_exponent_lt (by decide) s
  exact ⟨_, r, x, (exec_mulp10 w k s).trans (runCommand_next hf _), hc⟩

end Sys2Proof.Machine
end

section
/-!
Proofs for 42_divide.md: the quotient and the remainder of a 256-bit number are no larger than it, so that R and X hold them
whole, and what DIV and DIVP10 complete or fail with.
-/

namespace Sys2Proof

/-- The divisors of DIVP10 are at most 10^19 < 2^64 (R151): one limb holds them. -/
theorem DivFactor.ten_pow_exponent_lt (k : DivFactor) : 10 ^ k.exponent < 2 ^ 64 := by
  cases k <;> decide

end Sys2Proof

namespace Sys2Proof.Machine

/-! ## The outcome of DIV, by its divisor (R150) -/

theorem divOutcome_zero (a : Nat) : divOutcome a 0 = .error .divZero := if_pos rfl

theorem divOutcome_of_ne_zero {b : Nat} (a : Nat) (hb : b ≠ 0) : divOutcome a b = .ok (quotientResult a b) := if_neg hb

/-! ## What the commands complete with -/

/-- R150 to R152: a command that divides a 256-bit number leaves the floor quotient in R and the remainder in X. -/
theorem completion_quotient {a d : Nat} (ha : a < 2 ^ 256) (hd : 0 < d) (s : State) :
    ∃ q r, a = q * d + r ∧ r < d ∧ Completion s (s.succeed (quotientResult a d)) q r false := by
  have hq : a / d % 2 ^ 256 = a / d := Nat.mod_eq_of_lt ((Nat.div_le_self a d).trans_lt ha)
  have hr : a % d % 2 ^ 256 = a % d := Nat.mod_eq_of_lt ((Nat.mod_le a d).trans_lt ha)
  have hplain := completion_plain s (a / d) (a % d) false
  rw [hq, hr] at hplain
  exact ⟨_, _, (Nat.div_add_mod' a d).symm, Nat.mod_lt a hd, hplain⟩

section
variable {s : State} {f : InFlight} (w : Width) (hf : s.inFlight = some f)
include hf

theorem exec_div_next : exec (.div w) s = .next (s.finish (divOutcome (f.a.low w) (f.b.low w))) :=
  (exec_div w s).trans (runCommand_next hf _)

theorem exec_div_of_ne_zero (hb : f.b.low w ≠ 0) :
    exec (.div w) s = .next (s.succeed (quotientResult (f.a.low w) (f.b.low w))) := by
  rw [exec_div_next w hf, divOutcome_of_ne_zero _ hb, State.finish]

theorem exec_div_of_zero (hb : f.b.low w = 0) : exec (.div w) s = .next (s.fail .divZero) := by
  rw [exec_div_next w hf, hb, divOutcome_zero, State.finish]

theorem exec_divp10_next (k : DivFactor) :
    exec (.divp10 w k) s = .next (s.succeed (quotientResult (f.a.low w) (10 ^ k.exponent))) :=
  (exec_divp10 w k s).trans (runCommand_next hf _)

end

/-! ## The obligations -/

/-- Settles O16: quotient and remainder are at most A_W, so R and X hold them whole. -/
theorem divCompletesWithQuotientAndRemainder : Obligations.DivCompletesWithQuotientAndRemainder := by
  intro w s f hf hb
  obtain ⟨q, r, hdiv⟩ := completion_quotient (f.a.low_lt_256 w) (Nat.pos_of_ne_zero hb) s
  exact ⟨_, q, r, exec_div_of_ne_zero w hf hb, hdiv⟩

/-- Settles O17: only B_W is compared with 0, so the limbs above W do not count. -/
theorem divByZeroFails : Obligations.DivByZeroFails :=
  fun w s _ hf hb => ⟨_, exec_div_of_zero w hf hb, failure_plain s .divZero⟩

/-- Settles O18: the remainder is below 10^k, which one limb holds. -/
theorem divByPowerOfTenCompletes : Obligations.DivByPowerOfTenCompletes := by
  intro w k s f hf
  obtain ⟨q, r, heq, hr, hc⟩ :=
    completion_quotient (f.a.low_lt_256 w) (by positivity : 0 < 10 ^ k.exponent) s
  exact ⟨_, q, r, exec_divp10_next w hf k, heq, hr, hr.trans k.ten_pow_exponent_lt, hc⟩

end Sys2Proof.Machine
end

section
/-!
Proofs for 43_count_shift.md: the shifts as one formula for every count, the two numbers the counts are fixed by, what LSH, RSH,
LZC and LOG10 complete with, and the shift law of R175.
-/

namespace Sys2Proof.Machine

/-! ## The results as numbers -/

section
variable {w : Width} {a : Nat}

/-- R170: from the count W on, the power of two is a multiple of 2^W, so the formula needs no guard. -/
theorem lshResult_eq (n : Nat) : lshResult w a n = { r := a * 2 ^ n % 2 ^ bits w } := by
  unfold lshResult
  split
  · next h => rw [Nat.mod_eq_zero_of_dvd ((pow_dvd_pow 2 h).mul_left a)]
  · rfl

/-- R172: all W bits of 0 are zeros. -/
theorem lzcResult_zero : (lzcResult w 0).r = bits w := rfl

/-- The shift law of R175 on numbers. -/
theorem mul_two_pow_mod_div {n W : Nat} (h : n ≤ W) : a * 2 ^ n % 2 ^ W / 2 ^ n = a % 2 ^ (W - n) := by
  rw [← Nat.sub_add_cancel h, Nat.pow_add, Nat.mul_mod_mul_right, Nat.mul_div_cancel _ (by positivity), Nat.add_sub_cancel]

/-- R173: the digit count of a number that is not 0, less 1, is the exponent of the power of ten below it. -/
theorem log10Outcome_of_ne_zero (h : a ≠ 0) : log10Outcome a = .ok { r := ndig a - 1 } := if_neg h

theorem ten_pow_ndig_pred_le (h : a ≠ 0) : 10 ^ (ndig a - 1) ≤ a :=
  ten_pow_le_of_lt_ndig (Nat.sub_lt (ndig_pos h) Nat.one_pos)

theorem lt_ten_pow_ndig_pred_succ (h : a ≠ 0) : a < 10 ^ (ndig a - 1 + 1) := by
  rw [Nat.sub_add_cancel (ndig_pos h)]
  exact lt_ten_pow_ndig a

/-- R173: 2^128 has 39 digits. -/
theorem ndig_pred_le_38 (h : a < 2 ^ 128) : ndig a - 1 ≤ 38 :=
  Nat.sub_le_of_le_add ((ndig_le_iff a 39).2 (h.trans (by decide)))

variable (ha : a < 2 ^ bits w)
include ha

/-- R171: from the count W on, the power of two is above the operand, so the formula needs no guard. -/
theorem rshResult_eq (n : Nat) : rshResult w a n = { r := a / 2 ^ n } := by
  unfold rshResult
  split
  · next h => rw [Nat.div_eq_of_lt (ha.trans_le (Nat.pow_le_pow_right (by decide) h))]
  · rfl

/-- R172: the zeros above the top one bit and the bits up to it fill the W bits. -/
theorem bits_sub_lzcResult : bits w - (lzcResult w a).r = bitlen a :=
  Nat.sub_sub_self ((bitlen_le_iff a (bits w)).2 ha)

end

/-! ## What the commands complete with -/

section
variable {s : State} {f : InFlight} (w : Width) (hf : s.inFlight = some f)
include hf

theorem exec_lsh_next : exec (.lsh w) s = .next (s.succeed { r := f.a.low w * 2 ^ f.b.l0.toNat % 2 ^ bits w }) := by
  rw [← lshResult_eq, exec_lsh]
  exact runCommand_next hf _

theorem exec_rsh_next : exec (.rsh w) s = .next (s.succeed { r := f.a.low w / 2 ^ f.b.l0.toNat }) := by
  rw [← rshResult_eq (f.a.low_lt w), exec_rsh]
  exact runCommand_next hf _

theorem exec_lzc_next : exec (.lzc w) s = .next (s.succeed (lzcResult w (f.a.low w))) :=
  (exec_lzc w s).trans (runCommand_next hf _)

theorem exec_log10_next : exec .log10_128 s = .next (s.finish (log10Outcome (f.a.low .w128))) :=
  runCommand_next hf _

end

/-! ## The obligations -/

/-- Settles O19: the result is a number modulo 2^W, which R holds whole. -/
theorem leftShiftCompletes : Obligations.LeftShiftCompletes :=
  fun w s _ hf => ⟨_, exec_lsh_next w hf, completion_of_lt_two_pow_bits s (Nat.mod_lt _ (by positivity)) _⟩

/-- Settles O20: the result is at most A_W, which R holds whole. -/
theorem rightShiftCompletes : Obligations.RightShiftCompletes :=
  fun w s f hf => ⟨_, exec_rsh_next w hf,
    completion_of_lt_two_pow_bits s ((Nat.div_le_self _ _).trans_lt (f.a.low_lt w)) _⟩

/-- Settles O21: W − n is the bit length of A_W, the least exponent of two above it. -/
theorem leadingZeroCountCompletes : Obligations.LeadingZeroCountCompletes := by
  intro w s f hf
  have hlen := bits_sub_lzcResult (f.a.low_lt w)
  have hle : (lzcResult w (f.a.low w)).r ≤ bits w := Nat.sub_le _ _
  refine ⟨_, _, exec_lzc_next w hf, hle, ?_, fun hlt => ?_,
    completion_of_lt_two_pow_bits s (hle.trans_lt Nat.lt_two_pow_self) _⟩
  · rw [hlen]
    exact lt_two_pow_bitlen _
  · have hne : f.a.low w ≠ 0 := by
      intro h0
      rw [h0, lzcResult_zero] at hlt
      exact lt_irrefl _ hlt
    rw [hlen]
    exact two_pow_le_of_bitlen hne

/-- Settles O22: the digit count less 1 is at most 38, since A_128 < 10^39. -/
theorem decimalLogarithmCompletes : Obligations.DecimalLogarithmCompletes := by
  intro s f hf hne
  have hexec := exec_log10_next hf
  rw [log10Outcome_of_ne_zero hne, finish_ok] at hexec
  have hle := ndig_pred_le_38 (f.a.low_lt .w128)
  have hlt : ndig (f.a.low .w128) - 1 < 2 ^ bits .w128 := hle.trans_lt (by decide)
  exact ⟨_, _, hexec, ten_pow_ndig_pred_le hne, lt_ten_pow_ndig_pred_succ hne, hle, completion_of_lt_two_pow_bits s hlt _⟩

/-- Settles O24: RSH reads what LSH left modulo 2^W, and that is the whole of it. -/
theorem rightShiftUndoesLeftShift : Obligations.RightShiftUndoesLeftShift := by
  intro w s u f g t v hf hn hs hg hga hgb hu
  obtain ⟨t', ht, hleft⟩ := leftShiftCompletes w s f hf
  obtain ⟨v', hv, hright⟩ := rightShiftCompletes w u g hg
  cases ht.symm.trans hs
  cases hv.symm.trans hu
  calc v.r.toNat = g.a.low w / 2 ^ g.b.l0.toNat := hright.r_eq
    _ = f.a.low w * 2 ^ f.b.l0.toNat % 2 ^ bits w / 2 ^ f.b.l0.toNat := by
      rw [hga, hgb, Limbs.low_eq_mod, hleft.r_eq, Nat.mod_mod]
    _ = f.a.low w % 2 ^ (bits w - f.b.l0.toNat) := mul_two_pow_mod_div hn.le

end Sys2Proof.Machine
end

section
/-!
Proofs for 44_reduce.md: the discarded digits, step 3 as its loop, the rounding decision, REDUCE by the steps of R190 and what
it completes with, and the rounded value when nothing was truncated before.
-/

namespace Sys2Proof.Machine

/-! ## The discarded digits (R194, R195, R209) -/

@[simp] theorem roundDigit_zero (sig : Nat) : roundDigit sig 0 = 0 := rfl

@[simp] theorem belowRoundDigit_zero (sig : Nat) : belowRoundDigit sig 0 = 0 := rfl

@[simp] theorem roundDigit_of_zero (k : Nat) : roundDigit 0 k = 0 := by simp [roundDigit]

@[simp] theorem belowRoundDigit_of_zero (k : Nat) : belowRoundDigit 0 k = 0 := by simp [belowRoundDigit]

/-- The last of `k + 1` digits stripped from the right. -/
theorem roundDigit_succ (sig k : Nat) : roundDigit sig (k + 1) = sig / 10 ^ k % 10 := by
  rw [roundDigit, if_neg k.succ_ne_zero, Nat.add_sub_cancel, Nat.pow_succ, Nat.mod_mul_right_div_self]

/-- The digits below the last one stripped are those stripped before it. -/
theorem belowRoundDigit_succ (sig k : Nat) : belowRoundDigit sig (k + 1) = sig % 10 ^ k := by
  rw [belowRoundDigit, if_neg k.succ_ne_zero, Nat.add_sub_cancel, Nat.mod_mod_of_dvd _ (pow_dvd_pow 10 k.le_succ)]

/-- The round digit and the digits below it make up the discarded part (R194). -/
theorem mod_ten_pow_succ (sig k : Nat) :
    sig % 10 ^ (k + 1) = roundDigit sig (k + 1) * 10 ^ k + belowRoundDigit sig (k + 1) :=
  (Nat.div_add_mod' (sig % 10 ^ (k + 1)) (10 ^ k)).symm

theorem belowRoundDigit_succ_lt (sig k : Nat) : belowRoundDigit sig (k + 1) < 10 ^ k :=
  Nat.mod_lt _ (by positivity)

theorem mod_ten_pow_eq_zero_iff (sig k : Nat) :
    sig % 10 ^ k = 0 ↔ roundDigit sig k = 0 ∧ belowRoundDigit sig k = 0 := by
  cases k with
  | zero => simp [Nat.mod_one]
  | succ k => simp [mod_ten_pow_succ]

/-- The discarded part against half a unit, by its digits (R198). -/
theorem mod_ten_pow_half (sig k : Nat) :
    (10 ^ k < 2 * (sig % 10 ^ k) ↔ 5 < roundDigit sig k ∨ (roundDigit sig k = 5 ∧ belowRoundDigit sig k ≠ 0)) ∧
      (2 * (sig % 10 ^ k) = 10 ^ k ↔ roundDigit sig k = 5 ∧ belowRoundDigit sig k = 0) := by
  cases k with
  | zero => simp [Nat.mod_one]
  | succ k =>
    have hd := roundDigit_le sig (k + 1)
    have hlo := belowRoundDigit_succ_lt sig k
    rw [mod_ten_pow_succ, Nat.pow_succ]
    generalize roundDigit sig (k + 1) = d at hd ⊢
    interval_cases d <;> omega

/-- The discarded digits by the equations of R194. -/
theorem discarded_spec (sig k : Nat) :
    if k = 0 then roundDigit sig k = 0 ∧ belowRoundDigit sig k = 0
    else sig % 10 ^ k = roundDigit sig k * 10 ^ (k - 1) + belowRoundDigit sig k ∧ belowRoundDigit sig k < 10 ^ (k - 1) := by
  cases k with
  | zero => exact ⟨rfl, rfl⟩
  | succ k => exact ⟨mod_ten_pow_succ sig k, belowRoundDigit_succ_lt sig k⟩

/-! ## Step 3 (R197) -/

/-- `headroom_zero` at every exponent. -/
theorem headroom_zero_eq_min (e : Int) : headroom 0 e = (0, min e 12287) := by
  by_cases h : e ≤ 12287
  · rw [headroom_low h, min_eq_left h]
  · rw [headroom_zero h, min_eq_right (by omega)]

/-- `headroom_pos` at every exponent: in range, the excess over EMAX is 0. -/
theorem headroom_of_ne_zero {q : Nat} (hq : q ≠ 0) (e : Int) :
    headroom q e =
      (q * 10 ^ min (e - 12287).toNat (34 - ndig q), e - (min (e - 12287).toNat (34 - ndig q) : Nat)) := by
  by_cases h : e ≤ 12287
  · have hexcess : (e - 12287).toNat = 0 := by omega
    simp [headroom_low h, hexcess]
  · exact headroom_pos h hq

/-- A turn of the loop leaves what the closed form gives. -/
theorem headroom_turn {q : Nat} {e : Int} (he : 12287 < e) (hq : q * 10 < 10 ^ 34) :
    headroom (q * 10) (e - 1) = headroom q e := by
  by_cases h0 : q = 0
  · subst h0
    rw [Nat.zero_mul, headroom_zero_eq_min, headroom_zero_eq_min, min_eq_right (by omega), min_eq_right he.le]
  · have hdig : ndig (q * 10) = ndig q + 1 := ndig_mul_ten_pow h0 1
    have hle : ndig (q * 10) ≤ 34 := (ndig_le_iff _ _).2 hq
    have hj : min (e - 12287).toNat (34 - ndig q) = min (e - 1 - 12287).toNat (34 - ndig (q * 10)) + 1 := by omega
    rw [headroom_of_ne_zero h0, headroom_of_ne_zero (by omega), hj, Nat.pow_succ']
    refine Prod.ext (Nat.mul_assoc ..) ?_
    dsimp only
    omega

/-- Where the loop stops, the closed form does nothing. -/
theorem headroom_stop {q : Nat} {e : Int} (hq : q < 10 ^ 34) (h : e ≤ 12287 ∨ 10 ^ 33 ≤ q) : headroom q e = (q, e) :=
  h.elim (headroom_low · q) (headroom_full · hq e)

/-! ## Step 4, the rounding decision (R198 to R203) -/

theorem away_iff (d : Nat) (t : Trunc) : away d t = true ↔ d ≠ 0 ∨ t = .hi := by simp [away]

theorem down_iff (d : Nat) (t : Trunc) (q : Nat) : down d t q = true ↔ t = .lo ∧ d = 0 ∧ 0 < q := by
  simp [down, and_assoc, Nat.pos_iff_ne_zero]

/-- R200. -/
theorem incToZero_spec (d : Nat) (t : Trunc) (q : Nat) :
    (t = .lo ∧ d = 0 ∧ 0 < q → incToZero d t q = -1) ∧ (¬(t = .lo ∧ d = 0 ∧ 0 < q) → incToZero d t q = 0) := by
  rw [← down_iff]
  exact ⟨fun h => if_pos h, fun h => if_neg h⟩

/-- R201. -/
theorem incAway_spec (d : Nat) (t : Trunc) :
    (d ≠ 0 ∨ t = .hi → incAway d t = 1) ∧ (¬(d ≠ 0 ∨ t = .hi) → incAway d t = 0) := by
  rw [← away_iff]
  exact ⟨fun h => if_pos h, fun h => if_neg h⟩

/-- No mode rounds a significand from which nothing was discarded. -/
theorem roundInc_exact (m : Rounding) (sgn : Bool) (q : Nat) : roundInc m sgn 0 .ex q = 0 := by
  have hzero : incToZero 0 .ex q = 0 := (incToZero_spec ..).2 (by simp)
  have haway : incAway 0 .ex = 0 := rfl
  cases m <;> simp [roundInc, hzero, haway]

theorem rounded_nonneg (m : Rounding) (sgn : Bool) (d : Nat) (t : Trunc) (q : Nat) :
    0 ≤ (q : Int) + roundInc m sgn d t q := by
  have hrange := roundInc_range m sgn d t q
  have hdown := @roundInc_down m sgn d t q
  omega

/-! ## The steps of R190 together -/

section
variable {sig k2 k : Nat} {e : Int} (m : Rounding) (sgn : Bool) (tin : Trunc)
  (hk2 : (0 - (e + (ndig sig - 34 : Nat))).toNat = k2) (hk : ndig sig - 34 + k2 = k)
include hk2 hk

/-- R196. -/
theorem reduceResult_of_clamp (hc : 0 < k2 ∧ sig / 10 ^ k = 0) :
    reduceResult sig e m sgn tin = reduced 0 6176 (truncState (belowRoundDigit sig k) tin) (roundDigit sig k) := by
  subst hk hk2
  exact if_pos hc

variable {h : Nat × Int} (hc : ¬ (0 < k2 ∧ sig / 10 ^ k = 0)) (hh : headroom (sig / 10 ^ k) (e + k) = h)
include hc hh

/-- Steps 3 to 6 (R197 to R205). -/
theorem reduceResult_of_not_clamp :
    let tr := truncState (belowRoundDigit sig k) tin
    let c := carryDigit ((h.1 : Int) + roundInc m sgn (roundDigit sig k) tr h.1).toNat h.2
    reduceResult sig e m sgn tin = reduced c.1 c.2 tr (roundDigit sig k) := by
  subst hh hk hk2
  rw [Nat.cast_add, ← add_assoc]
  exact if_neg hc

/-- R204: the increment carries into the 35th digit. -/
theorem reduceResult_of_carry
    (h4 : (h.1 : Int) + roundInc m sgn (roundDigit sig k) (truncState (belowRoundDigit sig k) tin) h.1 = 10 ^ 34) :
    reduceResult sig e m sgn tin =
      reduced (10 ^ 33) (h.2 + 1) (truncState (belowRoundDigit sig k) tin) (roundDigit sig k) := by
  rw [reduceResult_of_not_clamp m sgn tin hk2 hk hc hh, h4]
  rfl

/-- R204: the increment does not carry. -/
theorem reduceResult_of_no_carry
    (h4 : (h.1 : Int) + roundInc m sgn (roundDigit sig k) (truncState (belowRoundDigit sig k) tin) h.1 ≠ 10 ^ 34) :
    reduceResult sig e m sgn tin =
      reduced ((h.1 : Int) + roundInc m sgn (roundDigit sig k) (truncState (belowRoundDigit sig k) tin) h.1).toNat h.2
        (truncState (belowRoundDigit sig k) tin) (roundDigit sig k) := by
  have hnonneg := rounded_nonneg m sgn (roundDigit sig k) (truncState (belowRoundDigit sig k) tin) h.1
  rw [reduceResult_of_not_clamp m sgn tin hk2 hk hc hh, carryDigit, if_neg]
  rw [precision]
  omega

end

/-- R207: where nothing is discarded and nothing was truncated before, only step 3 acts. -/
theorem reduceResult_exact {sig q : Nat} {e x : Int} (m : Rounding) (sgn : Bool) (hs : sig < 10 ^ 34) (he : 0 ≤ e)
    (hh : headroom sig e = (q, x)) (hq : q < 10 ^ 34) : reduceResult sig e m sgn .ex = reduced q x .ex 0 := by
  have hk1 : ndig sig - 34 = 0 := Nat.sub_eq_zero_of_le ((ndig_le_iff sig 34).2 hs)
  have hinc : (q : Int) + roundInc m sgn 0 .ex q = q := by rw [roundInc_exact, add_zero]
  have hres := reduceResult_of_no_carry (sig := sig) (k2 := 0) (k := 0) (e := e) (h := (q, x)) m sgn .ex (by omega) hk1
    (fun hc => absurd hc.1 (lt_irrefl 0)) (by simpa using hh)
  simp only [roundDigit_zero, belowRoundDigit_zero, truncState, ne_eq, not_true_eq_false, if_false, hinc,
    Int.toNat_natCast] at hres
  exact hres (by omega)

theorem reduceResult_eq_reduced (sig : Nat) (e : Int) (m : Rounding) (sgn : Bool) (tin : Trunc) :
    ∃ q x tr d, reduceResult sig e m sgn tin = reduced q x tr d := by
  unfold reduceResult
  dsimp only
  split
  · exact ⟨_, _, _, _, rfl⟩
  · exact ⟨_, _, _, _, rfl⟩

theorem truncCode_ne_three (t : Trunc) : truncCode t ≠ 0b11#2 := by cases t <;> decide

/-- The ranges of R208, by what REDUCE writes. -/
theorem reduced_bounds {w : Width} {f : InFlight} {m : Rounding} {sgn : Bool} {tn tr : Trunc} {q d : Nat} {x : Int}
    (h : reduceResult (f.a.low w) f.expi.toInt m sgn tn = reduced q x tr d) :
    q < 10 ^ 34 ∧ d ≤ 9 ∧ 0 ≤ x ∧ x ≤ 32812 := by
  have hspec := reduceResult_spec (f.a.low_lt_256 w) (exponentIn_range f.expi) m sgn tn
  rw [exponentIn, h] at hspec
  obtain ⟨hq, hd, x', hx, h0, h1, -⟩ := hspec
  obtain rfl := Option.some.inj hx
  exact ⟨hq, hd, h0, h1⟩

/-! ## What REDUCE completes with (R206) -/

section
variable {w : Width} {rm : BitVec 3} {sgn : Bool} {tin : BitVec 2} {m : Rounding} {tn tr : Trunc} {s : State} {f : InFlight}
  {q d : Nat} {x : Int} (hf : s.inFlight = some f) (hm : roundingOf rm s.cfg.defMode = some m) (ht : truncOf tin = some tn)
include hf hm ht

theorem exec_reduce_completes (h : reduceResult (f.a.low w) f.expi.toInt m sgn tn = reduced q x tr d) :
    ∃ t, exec (.reduce w rm sgn tin) s = .next t ∧ ReduceCompletion s t q x tr d := by
  obtain ⟨hq, hd, h0, h1⟩ := reduced_bounds h
  refine ⟨_, exec_reduce_legal hf hm ht, ?_⟩
  rw [exponentIn, h]
  exact completion_reduced s (hq.trans (by decide)) h0 h1 tr hd

theorem reduceCompletion_of_next (h : reduceResult (f.a.low w) f.expi.toInt m sgn tn = reduced q x tr d) {t : State}
    (hexec : exec (.reduce w rm sgn tin) s = .next t) : ReduceCompletion s t q x tr d := by
  obtain ⟨t', hexec', hc⟩ := exec_reduce_completes hf hm ht h
  cases hexec'.symm.trans hexec
  exact hc

/-- REDUCE by its steps: the clamp, or step 3, the increment and the carry (R196 to R206). -/
theorem exec_reduce_by_steps {k2 k : Nat} {h : Nat × Int}
    (hk2 : (0 - (f.expi.toInt + (ndig (f.a.low w) - 34 : Nat))).toNat = k2) (hk : ndig (f.a.low w) - 34 + k2 = k)
    (hh : headroom (f.a.low w / 10 ^ k) (f.expi.toInt + k) = h) :
    let d := roundDigit (f.a.low w) k
    let tr := truncState (belowRoundDigit (f.a.low w) k) tn
    let q4 : Int := h.1 + roundInc m sgn d tr h.1
    ∃ t, exec (.reduce w rm sgn tin) s = .next t ∧
      (if 0 < k2 ∧ f.a.low w / 10 ^ k = 0 then ReduceCompletion s t 0 6176 tr d
        else if q4 = 10 ^ 34 then ReduceCompletion s t (10 ^ 33) (h.2 + 1) tr d
        else 0 ≤ q4 ∧ ReduceCompletion s t q4.toNat h.2 tr d) := by
  intro d tr q4
  by_cases hc : 0 < k2 ∧ f.a.low w / 10 ^ k = 0
  · simp only [if_pos hc]
    exact exec_reduce_completes hf hm ht (reduceResult_of_clamp m sgn tn hk2 hk hc)
  simp only [if_neg hc]
  by_cases h4 : q4 = 10 ^ 34
  · simp only [if_pos h4]
    exact exec_reduce_completes hf hm ht (reduceResult_of_carry m sgn tn hk2 hk hc hh h4)
  · simp only [if_neg h4]
    obtain ⟨t, hexec, hres⟩ :=
      exec_reduce_completes (rm := rm) hf hm ht (reduceResult_of_no_carry m sgn tn hk2 hk hc hh h4)
    exact ⟨t, hexec, rounded_nonneg .., hres⟩

end

/-- A REDUCE that does not fail is legal (R84, R86, R233). -/
theorem legal_of_exec_reduce {w : Width} {rm : BitVec 3} {sgn : Bool} {tin : BitVec 2} {s t : State}
    (hexec : exec (.reduce w rm sgn tin) s = .next t) (herr : t.stat.err = none) :
    ∃ f m tn, s.inFlight = some f ∧ roundingOf rm s.cfg.defMode = some m ∧ truncOf tin = some tn := by
  obtain ⟨f, hf, -⟩ := exec_next hexec
  have hlegal : ¬ (roundingOf rm s.cfg.defMode = none ∨ truncOf tin = none) := by
    intro hbad
    rw [exec_reduce, runReduce_illegal hf hbad] at hexec
    cases hexec
    cases herr
  rw [not_or] at hlegal
  obtain ⟨m, hm⟩ := Option.ne_none_iff_exists'.1 hlegal.1
  obtain ⟨tn, ht⟩ := Option.ne_none_iff_exists'.1 hlegal.2
  exact ⟨f, m, tn, hf, hm, ht⟩

/-! ## The rounded value when nothing was truncated before (R198 to R204) -/

/-- The increment when the command starts from TIN = EX. -/
def exactInc (m : Rounding) (sgn : Bool) (sig k : Nat) : Int :=
  roundInc m sgn (roundDigit sig k) (truncState (belowRoundDigit sig k) .ex) (sig / 10 ^ k)

theorem truncState_ex_eq_hi_iff (below : Nat) : truncState below .ex = .hi ↔ below ≠ 0 := by simp [truncState]

theorem truncState_ex_ne_lo (below : Nat) : truncState below .ex ≠ .lo := by
  unfold truncState
  split <;> simp

theorem incToZero_of_ex (below d q : Nat) : incToZero d (truncState below .ex) q = 0 :=
  (incToZero_spec ..).2 fun h => truncState_ex_ne_lo _ h.1

/-- R201: AwayFromZero rounds exactly when the discarded part is not 0. -/
theorem incAway_of_ex (sig k : Nat) :
    incAway (roundDigit sig k) (truncState (belowRoundDigit sig k) .ex) = if sig % 10 ^ k = 0 then 0 else 1 := by
  have hspec := incAway_spec (roundDigit sig k) (truncState (belowRoundDigit sig k) .ex)
  rw [truncState_ex_eq_hi_iff, ← not_and_or, ← mod_ten_pow_eq_zero_iff, not_not] at hspec
  split
  · next h => exact hspec.2 h
  · next h => exact hspec.1 h

/-- R198: NE compares the discarded part with half a unit. -/
theorem exactInc_ne (sgn : Bool) (sig k : Nat) : exactInc .ne sgn sig k =
    if 10 ^ k < 2 * (sig % 10 ^ k) ∨ (2 * (sig % 10 ^ k) = 10 ^ k ∧ sig / 10 ^ k % 2 = 1) then 1 else 0 := by
  obtain ⟨hmore, htie⟩ := mod_ten_pow_half sig k
  refine if_congr ?_ rfl rfl
  rw [hmore, htie, truncState_ex_eq_hi_iff]
  omega

/-- R199: NA compares the discarded part with half a unit. -/
theorem exactInc_na (sgn : Bool) (sig k : Nat) :
    exactInc .na sgn sig k = if 10 ^ k ≤ 2 * (sig % 10 ^ k) then 1 else 0 := by
  obtain ⟨hmore, htie⟩ := mod_ten_pow_half sig k
  refine if_congr ?_ rfl rfl
  omega

/-- The modes toward zero, by the sign, drop the discarded part (R200, R202, R203). -/
theorem exactInc_toward_zero {m : Rounding} {sgn : Bool}
    (h : m = .tz ∨ (m = .tn ∧ sgn = false) ∨ (m = .tp ∧ sgn = true)) (sig k : Nat) : exactInc m sgn sig k = 0 := by
  obtain rfl | ⟨rfl, rfl⟩ | ⟨rfl, rfl⟩ := h <;> exact incToZero_of_ex _ _ _

/-- The modes away from zero, by the sign, round a discarded part up (R201 to R203). -/
theorem exactInc_away_from_zero {m : Rounding} {sgn : Bool}
    (h : m = .az ∨ (m = .tn ∧ sgn = true) ∨ (m = .tp ∧ sgn = false)) (sig k : Nat) :
    exactInc m sgn sig k = if sig % 10 ^ k = 0 then 0 else 1 := by
  obtain rfl | ⟨rfl, rfl⟩ | ⟨rfl, rfl⟩ := h <;> exact incAway_of_ex sig k

/-- `v` is what the mode and the sign ask for as `sig` rounded to a multiple of 10^k. -/
def RoundedTo (m : Rounding) (sgn : Bool) (sig k v : Nat) : Prop :=
  (m = .ne → 2 * v ≤ 2 * sig + 10 ^ k ∧ 2 * sig ≤ 2 * v + 10 ^ k ∧
    (2 * v = 2 * sig + 10 ^ k ∨ 2 * sig = 2 * v + 10 ^ k → 0 < k → v / 10 ^ k % 2 = 0)) ∧
  (m = .na → 2 * v ≤ 2 * sig + 10 ^ k ∧ 2 * sig < 2 * v + 10 ^ k) ∧
  (m = .tz ∨ (m = .tn ∧ sgn = false) ∨ (m = .tp ∧ sgn = true) → v ≤ sig ∧ sig < v + 10 ^ k) ∧
  (m = .az ∨ (m = .tn ∧ sgn = true) ∨ (m = .tp ∧ sgn = false) → sig ≤ v ∧ v < sig + 10 ^ k)

/-- The kept significand plus its increment is the rounded number, in units of the last kept place. -/
theorem roundedTo_exactInc (m : Rounding) (sgn : Bool) (sig k : Nat) :
    RoundedTo m sgn sig k (((sig / 10 ^ k : Nat) + exactInc m sgn sig k).toNat * 10 ^ k) := by
  have hpos : 0 < 10 ^ k := by positivity
  have hparts := Nat.div_add_mod' sig (10 ^ k)
  have hlt := Nat.mod_lt sig hpos
  have hkeep : (((sig / 10 ^ k : Nat) : Int) + 0).toNat = sig / 10 ^ k := by rw [add_zero, Int.toNat_natCast]
  have hup : (((sig / 10 ^ k : Nat) : Int) + 1).toNat * 10 ^ k = sig / 10 ^ k * 10 ^ k + 10 ^ k := by
    rw [Int.toNat_natCast_add_one, Nat.succ_mul]
  refine ⟨?_, ?_, fun h => ?_, fun h => ?_⟩
  · rintro rfl
    rw [exactInc_ne]
    split
    · have hdiv : (sig / 10 ^ k * 10 ^ k + 10 ^ k) / 10 ^ k = sig / 10 ^ k + 1 := by
        rw [Nat.add_div_right _ hpos, Nat.mul_div_cancel _ hpos]
      rw [hup, hdiv]
      omega
    · rw [hkeep, Nat.mul_div_cancel _ hpos]
      omega
  · rintro rfl
    rw [exactInc_na]
    split
    · rw [hup]
      omega
    · rw [hkeep]
      omega
  · rw [exactInc_toward_zero h, hkeep]
    omega
  · rw [exactInc_away_from_zero h]
    split
    · rw [hkeep]
      omega
    · rw [hup]
      omega

/-! ## The obligations -/

/-- Settles O32, by induction on the bound on the turns. -/
theorem headroomClosedFormIsTheLoop : Obligations.HeadroomClosedFormIsTheLoop := by
  intro q e n hq hn
  induction n generalizing q e with
  | zero => exact headroom_stop hq (.inl (by omega))
  | succ n ih =>
    rw [headroomLoop]
    split
    · next h => rw [← headroom_turn h.1 h.2, ih _ _ h.2 (by omega)]
    · next h => exact headroom_stop hq (by omega)

/-- Settles O33, by induction on the number of digits stripped. -/
theorem strippingOneDigitAtATimeAgrees : Obligations.StrippingOneDigitAtATimeAgrees := by
  intro sig k
  induction k with
  | zero => simp [stripDigits]
  | succ k ih =>
    have hflag : (decide (belowRoundDigit sig k ≠ 0) || roundDigit sig k != 0) = decide (sig % 10 ^ k ≠ 0) := by
      rw [Bool.eq_iff_iff]
      simp [mod_ten_pow_eq_zero_iff, imp_iff_not_or, or_comm]
    rw [stripDigits, ih, roundDigit_succ, belowRoundDigit_succ, Nat.pow_succ, ← Nat.div_div_eq_div_mul, ← hflag]

/-- Settles O26: step 3 is its loop, and the discarded digits meet their equations. -/
theorem reduceCompletesAsItsPseudocode : Obligations.ReduceCompletesAsItsPseudocode := by
  intro w rm sgn tin m tn s f hf hm ht
  let sig := f.a.low w
  let k1 := ndig sig - 34
  let e1 := f.expi.toInt + k1
  let k2 := (0 - e1).toNat
  let k := k1 + k2
  have he2 : f.expi.toInt + k = e1 + k2 := by omega
  have hh : headroom (sig / 10 ^ k) (f.expi.toInt + k) =
      headroomLoop (e1 + k2 - 12287).toNat (sig / 10 ^ k) (e1 + k2) := by
    rw [he2]
    exact headroomClosedFormIsTheLoop _ _ _ (kept_lt sig k2) le_rfl
  obtain ⟨t, hexec, hres⟩ := exec_reduce_by_steps hf hm ht rfl rfl hh
  exact ⟨t, _, _, _, _, hexec, (Nat.div_add_mod' ..).symm, Nat.mod_lt _ (by positivity), discarded_spec sig k, hres⟩

/-- Settles O29, from the ranges of what is written. -/
theorem reduceOutputInvariants : Obligations.ReduceOutputInvariants := by
  intro w rm sgn tin s t hexec herr
  obtain ⟨f, m, tn, hf, hm, ht⟩ := legal_of_exec_reduce hexec herr
  obtain ⟨q, x, tr, d, h⟩ := reduceResult_eq_reduced (f.a.low w) f.expi.toInt m sgn tn
  obtain ⟨hq, hd, h0, h1⟩ := reduced_bounds h
  have hc := reduceCompletion_of_next hf hm ht h hexec
  have hx : (t.expo.toNat : Int) = x := by
    have he := hc.expo_eq
    rw [BitVec.toInt_eq_toNat_cond] at he
    have := t.expo.isLt
    split at he <;> omega
  refine ⟨by rw [hc.r_eq]; omega, by omega, ?_, by rw [hc.rd_eq]; exact hd, truncCode_ne_three _⟩
  rw [hc.ovf_eq, decide_eq_false_iff_not]
  omega

/-- Settles O30: nothing is discarded and step 3 does not turn. -/
theorem reduceOfAnExactValueIsExact : Obligations.ReduceOfAnExactValueIsExact := by
  intro w rm sgn m s f hf hm hs h0 h1
  have hs' : f.a.low w < 10 ^ 34 := by omega
  exact exec_reduce_completes hf hm rfl (reduceResult_exact m sgn hs' h0 (headroom_low h1 _) hs')

/-- Settles O31: the clamp below 0, the exact case in range, step 3 above. -/
theorem reduceOfZero : Obligations.ReduceOfZero := by
  intro w rm sgn m s f hf hm hs
  apply exec_reduce_completes hf hm rfl
  rw [hs]
  split
  · next hneg =>
    have hdigits : 0 < (0 - (f.expi.toInt + (ndig 0 - 34 : Nat))).toNat := by
      rw [ndig_zero]
      omega
    have hclamp := reduceResult_of_clamp m sgn .ex rfl rfl ⟨hdigits, Nat.zero_div _⟩
    simpa [truncState] using hclamp
  · next hpos =>
    refine reduceResult_exact m sgn (by positivity) (by omega) ?_ (by positivity)
    rw [headroom_zero_eq_min, min_def]

/-- Settles O34: without the clamp and the loop, the result is the kept significand plus its increment, with or without the
carry. -/
theorem reduceRoundsCorrectlyFromAnExactValue : Obligations.ReduceRoundsCorrectlyFromAnExactValue := by
  intro w rm sgn m s t f hf hm hexec sig k1 e1 k2 k hkept hturn
  have hclamp : ¬ (0 < k2 ∧ sig / 10 ^ k = 0) := by
    rw [Nat.div_eq_zero_iff_lt (by positivity)]
    omega
  have hhead : headroom (sig / 10 ^ k) (f.expi.toInt + k) = (sig / 10 ^ k, f.expi.toInt + k) :=
    headroom_stop (kept_lt sig k2) (by omega)
  have hnonneg : 0 ≤ ((sig / 10 ^ k : Nat) : Int) + exactInc m sgn sig k := rounded_nonneg ..
  by_cases h4 : ((sig / 10 ^ k : Nat) : Int) + exactInc m sgn sig k = 10 ^ 34
  · have hres := reduceCompletion_of_next hf hm rfl (reduceResult_of_carry m sgn .ex rfl rfl hclamp hhead h4) hexec
    have hexpo : t.expo.toInt - f.expi.toInt = (k + 1 : Nat) := by rw [hres.expo_eq]; omega
    refine ⟨_, ?_, by omega, roundedTo_exactInc m sgn sig k⟩
    rw [Nat.cast_mul, Int.toNat_of_nonneg hnonneg, h4, hres.r_eq, hexpo, Int.toNat_natCast, pow_succ']
    push_cast
    ring
  · have hres := reduceCompletion_of_next hf hm rfl (reduceResult_of_no_carry m sgn .ex rfl rfl hclamp hhead h4) hexec
    have hexpo : t.expo.toInt - f.expi.toInt = (k : Nat) := by rw [hres.expo_eq]; omega
    refine ⟨_, ?_, by omega, roundedTo_exactInc m sgn sig k⟩
    rw [hres.r_eq, hexpo, Int.toNat_natCast]
    push_cast
    rfl

/-- Settles O25: each mode is a threshold on the digit or one of the two increments, chosen by the sign. -/
theorem roundingDecisionTable : Obligations.RoundingDecisionTable := by
  intro sgn d t q
  have hzero := incToZero_spec d t q
  have haway := incAway_spec d t
  refine ⟨⟨fun h => if_pos h, fun h => if_neg h⟩, ⟨fun h => if_pos h, fun h => if_neg (Nat.not_le.2 h)⟩, hzero, haway, ?_, ?_⟩
  · exact ⟨by rintro rfl; exact haway, by rintro rfl; exact hzero⟩
  · exact ⟨by rintro rfl; exact haway, by rintro rfl; exact hzero⟩

/-- Settles O28: 6 selects the mode in CFG, and so does its code. -/
theorem defaultModeIsTheModeOfCfg : Obligations.DefaultModeIsTheModeOfCfg := by
  intro w sgn tin s
  have hmode : roundingOf (s.cfg.toWord.extractLsb' 0 3) s.cfg.defMode = roundingOf 6#3 s.cfg.defMode := by
    rw [s.cfg.toWord_code.1, roundingOf_roundingCode]
    rfl
  rw [exec_reduce, exec_reduce, runReduce, runReduce, hmode]

end Sys2Proof.Machine
end

section
/-!
Proofs for 60_exceptions.md: which commands fail and with which code, what a failure leaves unchanged, the step of an illegal
word, and that no step stops the machine or clears its record.
-/

namespace Sys2Proof

/-! ## Legal commands and their fields -/

/-- RM and TIN of a legal command have a meaning; a command other than REDUCE has 0 in both (R84, R86, R91). -/
theorem Instr.legal_rm_tin {i : Instr} (h : i.wellFormed = true) : i.fields.rm ≠ 7#3 ∧ i.fields.tin ≠ 3#2 := by
  cases i
  case reduce_128 | reduce_192 | reduce_256 =>
    simpa [Instr.fields, Instr.wellFormed, legalRm, legalTin] using h
  all_goals exact ⟨by decide, by decide⟩

/-- The instructions of the opcode DIV (R89). -/
theorem Instr.eq_div_of_op {i : Instr} (h : i.fields.op = .div) : i = .div i.fields.w := by
  cases i
  case div_128 | div_192 | div_256 => rfl
  all_goals cases h

/-- The one instruction of the opcode LOG10 (R89, R92). -/
theorem Instr.eq_log10_of_op {i : Instr} (h : i.fields.op = .log10) : i = .log10_128 := by
  cases i
  case log10_128 => rfl
  all_goals cases h

end Sys2Proof

namespace Sys2Proof.Machine

/-! ## Which commands fail -/

/-- Only an RM of 7 names no rounding mode (R84, R87). -/
theorem roundingOf_eq_none_iff (rm : BitVec 3) (g : Rounding) : roundingOf rm g = none ↔ rm = 7#3 := by
  cases g <;> revert rm <;> decide

/-- Only a TIN of 0b11 names no truncation state (R86, R88). -/
theorem truncOf_eq_none_iff (tin : BitVec 2) : truncOf tin = none ↔ tin = 3#2 := by
  revert tin
  decide

theorem divOutcome_eq_error_iff {a b : Nat} {e : CommandError} : divOutcome a b = .error e ↔ b = 0 ∧ e = .divZero := by
  unfold divOutcome
  split <;> simp [*, eq_comm]

theorem log10Outcome_eq_error_iff {a : Nat} {e : CommandError} : log10Outcome a = .error e ↔ a = 0 ∧ e = .domain := by
  unfold log10Outcome
  split <;> simp [*, eq_comm]

/-- The failures of legal commands (R232, R234, R235): every other operation answers a result, REDUCE because its RM and TIN have
a meaning. -/
theorem InFlight.outcome_error_cases {f : InFlight} {i : Instr} {g : Rounding} {e : CommandError} (hi : i.wellFormed = true)
    (h : f.outcome i g = .error e) :
    (i.fields.op = .div ∧ f.b.low i.fields.w = 0 ∧ e = .divZero) ∨
      (i.fields.op = .log10 ∧ f.a.low i.fields.w = 0 ∧ e = .domain) := by
  unfold InFlight.outcome commandOutcome at h
  cases hop : i.fields.op <;> simp only [hop] at h
  case div => exact .inl ⟨rfl, divOutcome_eq_error_iff.1 h⟩
  case log10 => exact .inr ⟨rfl, log10Outcome_eq_error_iff.1 h⟩
  case reduce =>
    obtain ⟨hrm, htin⟩ := Instr.legal_rm_tin hi
    split at h
    · cases h
    · next hm => exact absurd ((roundingOf_eq_none_iff _ g).1 hm) hrm
    · next ht => exact absurd ((truncOf_eq_none_iff _).1 ht) htin
  all_goals cases h

/-! ## The end of a command and its record -/

/-- ERR is the code of the failure, and none after a success (R231, R232). -/
theorem finish_err_eq_some_iff {out : Except CommandError Result} {s : State} {e : CommandError} :
    (s.finish out).stat.err = some e ↔ out = .error e := by
  cases out <;> simp

/-- A command that ends with an error is a failure with that error (R231). -/
theorem failure_of_finish_err {out : Except CommandError Result} {s : State} {e : CommandError}
    (h : (s.finish out).stat.err = some e) : Failure s (s.finish out) e := by
  rw [finish_err_eq_some_iff.1 h]
  exact failure_plain s e

/-- The end of a command clears nothing of the record (R240). -/
theorem finish_ghost (out : Except CommandError Result) (s : State) :
    (s.ghost.commandFailed = true → (s.finish out).ghost.commandFailed = true) ∧
      (s.ghost.unsetRead = true → (s.finish out).ghost.unsetRead = true) ∧
      (s.ghost.busError = true → (s.finish out).ghost.busError = true) :=
  ⟨finish_commandFailed out, (finish_sameInputs out s).unset_read.trans, (finish_sameInputs out s).bus_error.trans⟩

/-- An input, a reset among them, clears nothing of the record (R240, R260). -/
theorem receive_ghost (s : State) :
    (s.ghost.commandFailed = true → s.receive.ghost.commandFailed = true) ∧
      (s.ghost.unsetRead = true → s.receive.ghost.unsetRead = true) ∧
      (s.ghost.busError = true → s.receive.ghost.busError = true) := by
  obtain ⟨-, h⟩ | ⟨l, -, h⟩ | ⟨acc, l, -, h⟩ | ⟨l, -, h⟩ := receive_cases s <;> rw [h]
  · exact ⟨id, id, id⟩
  · exact ⟨id, id, id⟩
  · exact perform_ghost acc { s with inbox := l }
  · exact ⟨id, id, id⟩

/-- A step that completes an illegal word is a failure with ILLEGAL (R233). -/
theorem step_of_illegal {s : State} {e : IllegalWord} (hd : s.due = true) (hr : s.resetNow = false)
    (hc : decode s.cmd = .error e) : step s = .next (s.fail .illegal) := by
  simp [step, State.cycle, hd, hr, hc]

/-! ## The obligations -/

/-- Settles O6: the due word runs as a failure. -/
theorem illegalWordFailsWithIllegal : Obligations.IllegalWordFailsWithIllegal :=
  fun s _ _ hf hle hr hc => ⟨_, step_of_illegal (due_of_cyclesLeft_le hf hle) hr hc, failure_plain s .illegal⟩

/-- Settles O8: a reset, a completion and a waiting cycle all have a next state. -/
theorem everyStepAnswersANextState : Obligations.EveryStepAnswersANextState := by
  intro s
  cases hr : s.resetNow with
  | true => exact ⟨_, step_of_reset hr⟩
  | false =>
    cases hd : s.due with
    | true =>
      obtain ⟨out, -, hs⟩ := step_completes hd hr
      exact ⟨_, hs⟩
    | false => exact ⟨_, step_of_waiting hd hr⟩

/-- Settles O23: the outcome of LOG10 on 0 is DOMAIN. -/
theorem decimalLogarithmOfZeroFails : Obligations.DecimalLogarithmOfZeroFails := by
  intro s f hf hzero
  have hexec := exec_log10_next hf
  rw [log10Outcome_eq_error_iff.2 ⟨hzero, rfl⟩, finish_error] at hexec
  exact ⟨_, hexec, failure_plain s .domain⟩

/-- Settles O37: every due command ends through `State.finish`, which sets ERR only when it fails. -/
theorem failedCommandsWriteOnlyStat : Obligations.FailedCommandsWriteOnlyStat := by
  intro s t f e hf hle hr hs herr
  obtain ⟨out, -, h⟩ := step_completes (due_of_cyclesLeft_le hf hle) hr
  obtain rfl : s.finish out = t := by simpa [h] using hs
  exact failure_of_finish_err herr

/-- Settles O39: ERR is the error of the outcome, and only DIV and LOG10 have one. -/
theorem onlyDivAndLogarithmCanFail : Obligations.OnlyDivAndLogarithmCanFail := by
  intro i s t f e hi hf hexec herr
  obtain ⟨g, hg, rfl⟩ := exec_next hexec
  obtain rfl : f = g := Option.some.inj (hf.symm.trans hg)
  obtain ⟨hop, hb, he⟩ | ⟨hop, ha, he⟩ := InFlight.outcome_error_cases hi (finish_err_eq_some_iff.1 herr)
  · exact .inl ⟨⟨_, Instr.eq_div_of_op hop, hb⟩, he⟩
  · obtain rfl := Instr.eq_log10_of_op hop
    exact .inr ⟨⟨rfl, ha⟩, he⟩

/-- Settles O58, by cases on what the step does. -/
theorem theRecordIsSticky : Obligations.TheRecordIsSticky := by
  intro s t hs
  obtain ⟨-, rfl⟩ | ⟨-, -, out, -, rfl⟩ | ⟨-, -, rfl⟩ := step_next_cases hs
  · exact receive_ghost s
  · exact finish_ghost out s
  · exact receive_ghost s.tick

end Sys2Proof.Machine
end

section
/-!
Proofs for 70_reset_and_hazards.md: what a reset leaves, what a read shows while a command is busy, and when the read of an
operand that nothing had set is recorded.
-/

namespace Sys2Proof.Machine

/-! ## The operands a command reads -/

/-- The limbs of A a command reads: A_W, whatever the operation (R24). -/
theorem readsOf_aLimbs (i : Instr) : (readsOf i).aLimbs = bits i.fields.w / 64 := by
  unfold readsOf
  cases i.fields.op <;> rfl

/-- The limbs of B a command reads: B_W, B0 or none, by the operation (R24). -/
theorem lt_readsOf_bLimbs_iff (i : Instr) (j : Fin 4) :
    j.val < (readsOf i).bLimbs ↔
      ((i.fields.op = .add ∨ i.fields.op = .sub ∨ i.fields.op = .mul ∨ i.fields.op = .div) ∧
          j.val < bits i.fields.w / 64) ∨
        ((i.fields.op = .mul64 ∨ i.fields.op = .lsh ∨ i.fields.op = .rsh) ∧ j = 0) := by
  unfold readsOf
  cases i.fields.op
  case add | sub | mul | div => simp [readsAB, limbCount]
  case mul64 | lsh | rsh => simp [readsAB0]
  case neg | mulp10 | divp10 | lzc | log10 => simp [readsA]
  case reduce => simp [readsAExpi]

/-- REDUCE alone reads EXPI (R190). -/
theorem readsOf_expi_iff (i : Instr) : (readsOf i).expi = true ↔ i.fields.op = .reduce := by
  unfold readsOf
  cases i.fields.op
  case reduce => simp [readsAExpi]
  all_goals simp [readsA, readsAB, readsAB0]

theorem wordReads_of_decode {v : Word} {i : Instr} (h : decode v = .ok i) : wordReads v = readsOf i := by
  simp [wordReads, h]

/-- An illegal word reads no operand (R110, R237). -/
theorem wordReads_allSet_of_illegal {v : Word} {e : IllegalWord} (h : decode v = .error e) (m : Written) :
    (wordReads v).allSet m = true := by
  simp [wordReads, h, Reads.allSet, LimbFlags.lowest]

/-- What a CMD write while idle does to the record (R261). -/
theorem perform_cmd_ghost {s : State} (h : s.stat.busy = false) (v : Word) :
    (s.perform (.write 0x90#8 8 v)).ghost =
      { s.ghost with unsetRead := s.ghost.unsetRead || !(wordReads v).allSet s.written } := by
  rw [perform_cmd h, State.respond_ghost, State.start_ghost]

/-! ## Reads while a command is busy -/

/-- A read while busy of a register that shows a free value then (R40, R265). -/
theorem hostRead_of_busyView {g : Reg} {s : State} {v : Word} (hb : s.stat.busy = true)
    (hv : busyView (Config.busyRead s.draws) g = some v) :
    s.hostRead g =
      { s with
        responses := s.responses ++ [.data v], draws := s.draws + 1
        ghost := { s.ghost with unsetRead := s.ghost.unsetRead || !s.isSet g } } := by
  simp [State.hostRead, hb, hv]

/-- A read while busy of a register that keeps its value then (R65, R265). -/
theorem hostRead_of_busyView_none {g : Reg} {s : State} (hv : busyView (Config.busyRead s.draws) g = none) :
    s.hostRead g =
      { s with
        responses := s.responses ++ [.data (s.readReg g)], draws := s.draws
        ghost := { s.ghost with unsetRead := s.ghost.unsetRead || !s.isSet g } } := by
  simp [State.hostRead, hv]

/-- A STAT read while busy has BUSY = 1 and its reserved bits 0, since the mask has none of them (R30, R265). -/
theorem busyStatus_fields (v : Word) :
    (busyStatus v).getLsbD 0 = true ∧ (busyStatus v).extractLsb' 6 2 = 0#2 ∧ (busyStatus v).extractLsb' 16 48 = 0#48 := by
  simp [busyStatus, BitVec.extractLsb'_or, BitVec.extractLsb'_and]

/-! ## Reset -/

theorem Status.idle_toWord : Status.idle.toWord = 0#64 := by decide

/-- A reset presented is taken, and consumed (R260). -/
theorem step_applyReset {s : State} (h : s.resetNow = true) :
    ∃ rest, s.inbox = .reset :: rest ∧ step s = .next (State.applyReset { s with inbox := rest }) := by
  obtain ⟨rest, hi⟩ := (resetNow_iff s).1 h
  exact ⟨rest, hi, by rw [step_of_reset h, State.receive, hi]⟩

/-! ## The obligations -/

/-- Settles O42: the write records what `wordReads` says, which is the operands of the command by its operation and width. -/
theorem unsetOperandsAreRecorded : Obligations.UnsetOperandsAreRecorded := by
  refine ⟨fun i s hi hb => ?_, fun v e s hb hv => ?_⟩
  · dsimp only
    rw [perform_cmd_ghost hb, Bool.or_eq_true, Bool.not_eq_true', wordReads_of_decode (decode_encode hi),
      Reads.allSet_eq_false_iff, readsOf_aLimbs, readsOf_expi_iff]
    simp only [lt_readsOf_bLimbs_iff]
  · rw [perform_cmd_ghost hb, wordReads_allSet_of_illegal hv]
    simp

/-- Settles O47, by what each register shows while busy. -/
theorem busyReads : Obligations.BusyReads := by
  intro s g hb
  rw [perform_read_offsetOf]
  cases g
  case r | x | expo => exact ⟨_, _, hostRead_of_busyView hb rfl, rfl, rfl⟩
  case stat =>
    obtain ⟨hbusy, hlow, hhigh⟩ := busyStatus_fields (Config.busyRead s.draws)
    exact ⟨_, _, hostRead_of_busyView hb rfl, hbusy, hlow, hhigh, rfl⟩
  case a | b | expi | cmd | cfg => exact ⟨_, _, hostRead_of_busyView_none rfl, rfl, rfl⟩

/-- Settles O54: the step is the reset itself. -/
theorem resetAbandonsTheCommand : Obligations.ResetAbandonsTheCommand := by
  intro s h
  obtain ⟨rest, hi, hs⟩ := step_applyReset h
  exact ⟨_, hs, rfl, Status.idle_toWord, rfl, rfl, rfl, rfl, rfl, rfl, rfl, rfl, rfl, hi⟩

/-- Settles O60: the invariant has the read in the record, and no step clears the record. -/
theorem unsetOperandsStayRecordedThroughAReset : Obligations.UnsetOperandsStayRecordedThroughAReset := by
  intro s t f hinv hf hunset hs
  obtain ⟨-, hsticky, -⟩ := theRecordIsSticky s t hs
  exact hsticky (hinv.noted f hf hunset)

/-- Settles O53, from the word of an idle STAT; the rest is what `State.reset` says. -/
theorem resetValues : Obligations.ResetValues :=
  ⟨rfl, Status.idle_toWord, rfl, rfl, rfl⟩

/-- Settles O55: a reset leaves the invariant from every state, and the reset state is what it leaves of itself. -/
theorem resetMeetsTheInvariant : Obligations.ResetMeetsTheInvariant :=
  applyReset_inv State.reset

end Sys2Proof.Machine
end
